-- ==== Sys2Proof/Word.lean ====
section
/-! DEFINITION. The word types: a byte, a 16-bit value and a joypad nibble (00_scope.md, fixed widths under R6). -/

namespace Sys2Proof

/-- An 8-bit register, a data-bus byte (00_scope.md R7). -/
abbrev Byte := BitVec 8

/-- A 16-bit register or address; its arithmetic wraps (00_scope.md R7, R8). -/
abbrev Word := BitVec 16

/-- A joypad nibble (10_state.md R32). -/
abbrev Nibble := BitVec 4

/-- A 64-bit counter; its arithmetic wraps (10_state.md R29, R31). -/
abbrev Count := BitVec 64

/-- `hi ++ lo`, a 16-bit value of two bytes (00_scope.md R7). -/
abbrev joinBytes (hi lo : Byte) : Word := hi ++ lo

/-- `v[15:8]` (00_scope.md R7). -/
abbrev highByte (v : Word) : Byte := v.extractLsb' 8 8

/-- `v[7:0]` (00_scope.md R7). -/
abbrev lowByte (v : Word) : Byte := v.extractLsb' 0 8

end Sys2Proof
end

