-- ==== Sys2Proof/Syntax.lean ====
section
/-! DEFINITION. The instructions, one constructor for each row of spec/opcode_table.json, and the names of the
registers an executor can address (10_state.md R15, R16). -/

namespace Sys2Proof

/-- The eight 8-bit registers (10_state.md R15). -/
inductive Reg8 where
  | a | f | b | c | d | e | h | l
deriving DecidableEq, Repr, Inhabited

/-- The four 16-bit pairs (10_state.md R16). -/
inductive Reg16 where
  | af | bc | de | hl
deriving DecidableEq, Repr, Inhabited

/-- An instruction as the driver sees it: an opcode byte (30_encoding.md R55). No core instruction has an operand
field. `delegated op` is the row `CB-prefix__delegated`; it stands for every byte of the delegated space, since the
table gives the other bytes of that space no row (30_encoding.md R58, R60; log 2). -/
inductive Instr where
  | nop
  | stop
  | halt
  | reti
  | di
  | ei
  | delegated (op : Byte)
  | illegalD3
  | illegalDB
  | illegalDD
  | illegalE3
  | illegalE4
  | illegalEB
  | illegalEC
  | illegalED
  | illegalF4
  | illegalFC
  | illegalFD
deriving DecidableEq, Repr, Inhabited

end Sys2Proof
end

