-- ==== Sys2Proof/WellFormed.lean ====
section
/-! DEFINITION. Which instruction terms stand for an opcode byte: a delegated instruction holds a byte of the
delegated space, so not one of the six core bytes and not one of the eleven illegal bytes (30_encoding.md R56, R58,
R59). -/

namespace Sys2Proof

/-- The six core opcode bytes (30_encoding.md R56). -/
def coreOpcodes : List Byte := [0x00, 0x10, 0x76, 0xD9, 0xF3, 0xFB]

/-- The eleven bytes with no instruction (30_encoding.md R59). -/
def illegalOpcodes : List Byte := [0xD3, 0xDB, 0xDD, 0xE3, 0xE4, 0xEB, 0xEC, 0xED, 0xF4, 0xFC, 0xFD]

/-- The three parts of the opcode map (30_encoding.md R56, R58, R59). -/
inductive OpcodeClass where
  | core | delegated | illegal
deriving DecidableEq, Repr, Inhabited

/-- The part of the map an opcode byte belongs to. -/
def opcodeClass (op : Byte) : OpcodeClass :=
  if coreOpcodes.contains op then .core
  else if illegalOpcodes.contains op then .illegal
  else .delegated

/-- The part of the map an instruction belongs to. -/
def Instr.opcodeClass : Instr → OpcodeClass
  | .nop | .stop | .halt | .reti | .di | .ei => .core
  | .delegated _ => .delegated
  | .illegalD3 | .illegalDB | .illegalDD | .illegalE3 | .illegalE4 | .illegalEB | .illegalEC | .illegalED
  | .illegalF4 | .illegalFC | .illegalFD => .illegal

/-- A term is well formed when it stands for an opcode byte: a delegated instruction holds a delegated byte. -/
def Instr.wf : Instr → Bool
  | .delegated op => Sys2Proof.opcodeClass op == .delegated
  | .nop | .stop | .halt | .reti | .di | .ei => true
  | .illegalD3 | .illegalDB | .illegalDD | .illegalE3 | .illegalE4 | .illegalEB | .illegalEC | .illegalED
  | .illegalF4 | .illegalFC | .illegalFD => true

end Sys2Proof
end

