-- ==== Sys2Proof/Decode.lean ====
section
/-! DEFINITION. The decoder, from an opcode byte to an instruction, and the encoder, from the same table
(30_encoding.md R56, R58, R59, R60). Only the executor knows an instruction's length (R55), so decoding takes the
opcode byte alone; the meanings of STOP and of the delegated bytes fetch what follows it. -/

namespace Sys2Proof

/-- Why the decoder gives no instruction. Every byte has one, so the one reason is that there is no byte. -/
inductive DecodeError where
  /-- The list of bytes is empty. -/
  | noOpcodeByte
deriving DecidableEq, Repr, Inhabited

/-- The rows of the opcode map with one byte each (30_encoding.md R56, R59; spec/opcode_table.json). -/
def opcodeRows : List (Byte × Instr) :=
  [(0x00, .nop), (0x10, .stop), (0x76, .halt), (0xD9, .reti), (0xF3, .di), (0xFB, .ei),
   (0xD3, .illegalD3), (0xDB, .illegalDB), (0xDD, .illegalDD), (0xE3, .illegalE3), (0xE4, .illegalE4),
   (0xEB, .illegalEB), (0xEC, .illegalEC), (0xED, .illegalED), (0xF4, .illegalF4), (0xFC, .illegalFC),
   (0xFD, .illegalFD)]

/-- The instruction of an opcode byte; a byte with no row of its own is delegated (30_encoding.md R58). -/
def decodeOpcode (op : Byte) : Instr := (opcodeRows.lookup op).getD (.delegated op)

/-- Decoding a list of bytes: the instruction of the first byte, and the bytes after it. -/
def decode : List Byte → Except DecodeError (Instr × List Byte)
  | [] => .error .noOpcodeByte
  | op :: rest => .ok (decodeOpcode op, rest)

/-- The opcode byte of an instruction (30_encoding.md R56, R58, R59). -/
def Instr.opcode : Instr → Byte
  | .nop => 0x00
  | .stop => 0x10
  | .halt => 0x76
  | .reti => 0xD9
  | .di => 0xF3
  | .ei => 0xFB
  | .delegated op => op
  | .illegalD3 => 0xD3
  | .illegalDB => 0xDB
  | .illegalDD => 0xDD
  | .illegalE3 => 0xE3
  | .illegalE4 => 0xE4
  | .illegalEB => 0xEB
  | .illegalEC => 0xEC
  | .illegalED => 0xED
  | .illegalF4 => 0xF4
  | .illegalFC => 0xFC
  | .illegalFD => 0xFD

/-- The bytes of an instruction that the decoder reads. -/
def encode (i : Instr) : List Byte := [i.opcode]

/-- The two bytes a table word of `nbits` bits lays out, first byte first; the bits above `nbits` are 0. -/
def tableBytes (nbits w : Nat) : List Byte :=
  let v := w % 2 ^ nbits
  [BitVec.ofNat 8 v, BitVec.ofNat 8 (v / 256)]

/-- The instruction the decoder reads from a word numbered as spec/opcode_table.json numbers it. -/
def decodeTableWord (nbits w : Nat) : Option Instr :=
  match decode (tableBytes nbits w) with
  | .ok (i, _) => some i
  | .error _ => none

end Sys2Proof
end

