-- ==== Sys2Proof/Config.lean ====
section
/-! DEFINITION. What a run is fixed under: the types of the construction parameters (00_scope.md R6) and the free
values, opaque constants with no body. The executor, the timer and the display are parameters of the spec that are
functions, so they stand here and not in State. -/

namespace Sys2Proof

/-- The hardware target (10_state.md R24). -/
inductive Target where
  | mono | color
deriving DecidableEq, Repr, Inhabited

/-- `STOP_LENGTH` (30_encoding.md R57). -/
inductive StopLength where
  | one | two
deriving DecidableEq, Repr, Inhabited

/-- The selected joypad column (10_state.md R33). -/
inductive JoypSelect where
  | buttons | directions | both
deriving DecidableEq, Repr, Inhabited

/-- `CORE_COST`: the base cycles of the six core instructions (30_encoding.md R56). -/
structure CoreCost where
  nop : Nat
  halt : Nat
  stop : Nat
  ei : Nat
  di : Nat
  reti : Nat
deriving DecidableEq, Repr, Inhabited

/-- The CPU register file with SP and PC (10_state.md R15, R19, R20). -/
structure Regs where
  a : Byte
  f : Byte
  b : Byte
  c : Byte
  d : Byte
  e : Byte
  h : Byte
  l : Byte
  sp : Word
  pc : Word
deriving DecidableEq, Repr, Inhabited

/-- What the executor can read while it runs: 10_state.md sections 1 and 2 except `TARGET`, and the last byte it read
or fetched, which is the opcode byte at first (41_executor_contract.md R73). -/
inductive ExecSource where
  | reg8 (r : Reg8)
  | sp | pc
  | ime | imePending | halt | stop
  | lastByte
deriving DecidableEq, Repr, Inhabited

/-- What `EXEC` does on one delegated byte, as a decision tree: it tests bits of what it can read, writes registers and
IME, makes bus accesses, and ends with the base cost or with a fault (41_executor_contract.md R73 to R77, R79). Every
function with those effects is such a tree, since what it can read is finitely many bits (log 2). There is no
constructor that writes `cpu.halt`, `cpu.stop`, `cpu.ime_pending` or a field R74 excludes, so every tree keeps that
part of the contract. -/
inductive ExecTree where
  /-- `return cost`. -/
  | done (cost : Nat)
  /-- The byte, or the byte after the prefix, is not implemented (41_executor_contract.md R77). -/
  | fault
  /-- Go on by a bit of what can be read. -/
  | testBit (src : ExecSource) (bit : Nat) (ifSet ifClear : ExecTree)
  /-- `x[r] <- v`. -/
  | writeReg8 (r : Reg8) (v : Byte) (next : ExecTree)
  /-- `x[rr] <- v`. -/
  | writeReg16 (rr : Reg16) (v : Word) (next : ExecTree)
  /-- `SP <- v`. -/
  | writeSp (v : Word) (next : ExecTree)
  /-- `pc <- v`. -/
  | writePc (v : Word) (next : ExecTree)
  /-- `cpu.ime <- v`. -/
  | writeIme (v : Bool) (next : ExecTree)
  /-- `lastByte <- MemRead(addr, 1)`. -/
  | memRead (addr : Word) (next : ExecTree)
  /-- `MemWrite(addr, 1, v)`. -/
  | memWrite (addr : Word) (v : Byte) (next : ExecTree)
  /-- `lastByte <- FetchByte()`. -/
  | fetchByte (next : ExecTree)
deriving DecidableEq, Repr, Inhabited

/-- `EXEC` on the delegated space: the tree of each opcode byte, and of each byte after the prefix 0xCB
(30_encoding.md R58, R60). A byte with no tree is not implemented, and faults (41_executor_contract.md R77). -/
structure Executor where
  ops : List (Byte × ExecTree)
  cbOps : List (Byte × ExecTree)
deriving DecidableEq, Repr, Inhabited

/-- The construction parameters that are plain data (00_scope.md R6). State holds them in a field no step writes, so
that a statement about every state is a statement about every value of a parameter (log 1). -/
structure Params where
  /-- `TARGET` (10_state.md R24). -/
  target : Target
  /-- `EXEC` on the delegated space (41_executor_contract.md; log 2). -/
  executor : Executor
  /-- `FRAME_TICKS`, a positive integer (43_frame_scheduler.md R93). -/
  frameTicks : PNat
  /-- `INIT_REGS(TARGET)`, the registers after reset (70_reset_and_hazards.md R127). -/
  initRegs : Regs
  /-- `STOP_LENGTH`, OPEN (30_encoding.md R57). -/
  stopLength : StopLength
  /-- `CORE_COST` (30_encoding.md R56). -/
  coreCost : CoreCost
  /-- `JOYP_MULTI_VALUE`, OPEN (60_exceptions.md R122). -/
  joypMultiValue : Byte
  /-- `JOYP_RESET_SELECT`, OPEN (70_reset_and_hazards.md R131). -/
  joypResetSelect : JoypSelect
  /-- `IF_RESET` (70_reset_and_hazards.md R129). -/
  ifReset : Byte
  /-- `IE_RESET` (70_reset_and_hazards.md R129). -/
  ieReset : Byte
deriving DecidableEq, Repr, Inhabited

/-- What `TIMER_STEP` answers: its new own state, and whether it raises source 2 (43_frame_scheduler.md R95,
60_exceptions.md R100). -/
structure TimerResult where
  own : Nat
  overflow : Bool
deriving DecidableEq, Repr, Inhabited

/-- What `DISPLAY_STEP` answers: its new own state, and whether it raises source 0 and source 1
(43_frame_scheduler.md R95, 60_exceptions.md R100). -/
structure DisplayResult where
  own : Nat
  vblank : Bool
  status : Bool
deriving DecidableEq, Repr, Inhabited

/-- FREE VALUE. The parameter `EXEC` of the block constructed at reset (00_scope.md R5, R6; log 2, log 3). -/
opaque Config.executor : Executor

/-- FREE VALUE. `TIMER_STEP(ticks)` of the timer's own state, given the bus it may read (log 8). -/
opaque Config.timerStep : (own ticks : Nat) → (bus : Word → Byte) → TimerResult

/-- FREE VALUE. `DISPLAY_STEP(ticks)` of the display's own state, given the bus it may read (log 8). -/
opaque Config.displayStep : (own ticks : Nat) → (bus : Word → Byte) → DisplayResult

/-- FREE VALUE. The frame buffer of the display, a byte slice, as a function of the display's own state
(43_frame_scheduler.md R98; log 11). -/
opaque Config.displayImage : (own : Nat) → List Byte

/-- FREE VALUE. The target the block is constructed for (10_state.md R24; log 7). -/
opaque Config.target : Target

/-- FREE VALUE. The OPEN parameter `STOP_LENGTH` (30_encoding.md R57; log 7). -/
opaque Config.stopLength : StopLength

/-- FREE VALUE. The OPEN parameter `JOYP_MULTI_VALUE` (60_exceptions.md R122; log 7). -/
opaque Config.joypMultiValue : Byte

/-- FREE VALUE. The OPEN parameter `JOYP_RESET_SELECT` (70_reset_and_hazards.md R131; log 7). -/
opaque Config.joypResetSelect : JoypSelect

end Sys2Proof
end

