-- ==== Sys2Proof/Machine/Defaults.lean ====
section
/-! DEFINITION. The spec's defaults of the construction parameters (00_scope.md R6), and the parameters the block is
constructed with at reset (log 6, log 7). -/

namespace Sys2Proof.Machine

/-- The default of `INIT_REGS(TARGET)` (70_reset_and_hazards.md R127). -/
def defaultInitRegs (t : Target) : Regs where
  a := match t with | .mono => 0x01 | .color => 0x11
  f := match t with | .mono => 0xB0 | .color => 0x80
  b := 0x00
  c := match t with | .mono => 0x13 | .color => 0x00
  d := match t with | .mono => 0x00 | .color => 0xFF
  e := match t with | .mono => 0xD8 | .color => 0x56
  h := match t with | .mono => 0x01 | .color => 0x00
  l := match t with | .mono => 0x4D | .color => 0x0D
  sp := 0xFFFE
  pc := 0x0100

/-- The registers at reset: `INIT_REGS(TARGET)`, of which F[3:0] read 0 (70_reset_and_hazards.md R127, 10_state.md
R17). -/
def resetRegs (r : Regs) : Regs := { r with f := r.f &&& 0xF0 }

/-- The default of `CORE_COST` (30_encoding.md R56). -/
def defaultCoreCost : CoreCost := { nop := 1, halt := 1, stop := 1, ei := 1, di := 1, reti := 4 }

/-- The default of `FRAME_TICKS` (00_scope.md R6). -/
def defaultFrameTicks : PNat := 70224

/-- What an address of `BUS_EXT` with no byte listed reads as. DESIGN CHOICE (log 5): the spec leaves RAM at reset to
`BUS_EXT` (70_reset_and_hazards.md R132). -/
def unlistedByte : Byte := 0x00

/-- The parameters of the block `State.reset` constructs: the defaults, and the OPEN ones free (00_scope.md R6). -/
def defaultParams : Params where
  target := Config.target
  executor := Config.executor
  frameTicks := defaultFrameTicks
  initRegs := defaultInitRegs Config.target
  stopLength := Config.stopLength
  coreCost := defaultCoreCost
  joypMultiValue := Config.joypMultiValue
  joypResetSelect := Config.joypResetSelect
  ifReset := 0x00
  ieReset := 0x00

end Sys2Proof.Machine
end

