-- ==== Sys2Proof/Machine/Memory.lean ====
section
/-! DEFINITION. `BUS_EXT` as a byte store, the addresses it does not hold, and its contents at reset (20_memory.md R39,
R45, 70_reset_and_hazards.md R132). -/

namespace Sys2Proof.Machine

/-! ### BUS_EXT as a byte store -/

/-- `BUS_EXT` as a plain byte store (20_memory.md R39): the bytes that differ from `unlistedByte`, by rising
address (log 4, log 5). -/
abbrev Memory := List Host.Cell

/-- The byte at an address (20_memory.md R39; log 4, log 5). -/
def Memory.read : Memory → Nat → Byte
  | [], _ => unlistedByte
  | (k, v) :: m, a => if k = a then v else Memory.read m a

/-- Write a byte: the list stays sorted by address, and a byte equal to `unlistedByte` is not listed. -/
def Memory.write : Memory → Nat → Byte → Memory
  | [], a, v => if v = unlistedByte then [] else [(a, v)]
  | (k, w) :: m, a, v =>
    if a < k then (if v = unlistedByte then (k, w) :: m else (a, v) :: (k, w) :: m)
    else if a = k then (if v = unlistedByte then m else (a, v) :: m)
    else (k, w) :: Memory.write m a v

/-! ### The addresses of the core registers -/

/-- What an address reaches: one of the four core registers, or the platform (20_memory.md R39, R45). -/
inductive BusTarget where
  | intFlag | intEnable | joypad | key1 | ext
deriving DecidableEq, Repr, Inhabited

/-- The addresses of the core registers (20_memory.md R45, R46). -/
def busTarget (a : Word) : BusTarget :=
  if a = 0xFF0F then .intFlag
  else if a = 0xFFFF then .intEnable
  else if a = 0xFF00 then .joypad
  else if a = 0xFF4D then .key1
  else .ext

/-- The canonical form of the byte store: addresses strictly rising, below 2^16 and not those of a core register,
and no byte that an unlisted address reads as. -/
abbrev Memory.wf (m : Memory) : Prop :=
  List.Pairwise (fun c d : Host.Cell => c.1 < d.1) m ∧
    ∀ c ∈ m, c.1 < 65536 ∧ busTarget (BitVec.ofNat 16 c.1) = .ext ∧ c.2 ≠ unlistedByte

/-- One byte of the contents at reset; an address that is not the platform's holds none (20_memory.md R39). -/
def Memory.place (m : Memory) (c : Host.Cell) : Memory :=
  if c.1 < 65536 ∧ busTarget (BitVec.ofNat 16 c.1) = .ext then Memory.write m c.1 c.2 else m

/-- The store that holds the listed contents, the first listing of an address counting (70_reset_and_hazards.md
R132). -/
def Memory.load : List Host.Cell → Memory
  | [] => []
  | c :: cs => Memory.place (Memory.load cs) c

end Sys2Proof.Machine
end

