-- ==== Sys2Proof/Machine/State.lean ====
section
/-! DEFINITION. The state of the block (10_state.md), the reasons a step can stop, and the state after reset
(70_reset_and_hazards.md section 1). -/

namespace Sys2Proof.Machine

/-- The reasons a step stops, which are also the values of `core.fault` (10_state.md R35, 60_exceptions.md R114). -/
inductive Fault where
  /-- `UndefinedOpcode(op)`. Raised by the eleven illegal bytes and by a delegated byte the executor does not
  implement (41_executor_contract.md R77). Safe: the machine stops where a release build goes on. -/
  | undefinedOpcode (op : Byte)
  /-- `BadInterruptIndex(i)`. Raised by the interrupt controller on a selected index 5, 6 or 7 (60_exceptions.md
  R107). Safe: the machine stops where a release build goes on. -/
  | badInterruptIndex (i : Nat)
  /-- `ZeroCostStep(op)`. Raised by the driver when the executor returns cost 0 (42_driver_step.md R83). Safe: a
  correct executor never returns 0. -/
  | zeroCostStep (op : Byte)
deriving DecidableEq, Repr, Inhabited

/-- Why the model has no meaning for an instruction. -/
inductive Refusal where
  /-- An instruction with no meaning yet, by its mnemonic. Raised by no arm of `exec`. Safe. -/
  | notModelled (mnemonic : String)
deriving DecidableEq, Repr, Inhabited

/-- The two clock modes (10_state.md R27). -/
inductive Speed where
  | normal | double
deriving DecidableEq, Repr, Inhabited

/-- The eight buttons (10_state.md R32). -/
inductive Button where
  | a | b | select | start | right | left | up | down
deriving DecidableEq, Repr, Inhabited

/-- The calls of the host port (00_scope.md R12). -/
inductive HostCall where
  | frame
  | frames
  | image
  | keydown (key : Button)
  | keyup (key : Button)
deriving DecidableEq, Repr, Inhabited

/-- The state of the block. The last six fields are the model's own (log 8, log 10, log 11). -/
structure State where
  /-- The construction parameters; no step writes them (00_scope.md R6, 10_state.md R24). -/
  params : Params
  /-- The register file (10_state.md R15, R19, R20). -/
  regs : Regs
  /-- `cpu.ime` (10_state.md R21). -/
  ime : Bool
  /-- `cpu.ime_pending` (10_state.md R22). -/
  imePending : Bool
  /-- `cpu.halt` (10_state.md R23). -/
  halt : Bool
  /-- `cpu.stop` (10_state.md R23). -/
  stop : Bool
  /-- `bus.IF` (10_state.md R25). -/
  intFlag : Byte
  /-- `bus.IE` (10_state.md R26). -/
  intEnable : Byte
  /-- `bus.speed` (10_state.md R27). -/
  speed : Speed
  /-- `bus.switch_pending` (10_state.md R28). -/
  switchPending : Bool
  /-- `drv.total_ticks` (10_state.md R29). -/
  totalTicks : Count
  /-- `sched.budget` (10_state.md R30). -/
  budget : Int
  /-- `sched.frame_count` (10_state.md R31). -/
  frameCount : Count
  /-- `joy.buttons` (10_state.md R32). -/
  buttons : Nibble
  /-- `joy.directions` (10_state.md R32). -/
  directions : Nibble
  /-- `joy.select` (10_state.md R33). -/
  select : JoypSelect
  /-- `core.fault` (10_state.md R35). -/
  fault : Option Fault
  /-- `BUS_EXT` (20_memory.md R39). -/
  mem : Memory
  /-- The model's own: the base cycles of the step in progress; after it, the ticks `exec()` returned. -/
  ticks : Nat
  /-- The model's own: the host calls not yet made, oldest first. -/
  hostCalls : List HostCall
  /-- The model's own: what the last `frames()` returned. -/
  framesResult : Count
  /-- The model's own: what the last `image()` returned. -/
  imageResult : List Byte
  /-- The model's own: a code of the timer's own state (10_state.md R34). -/
  timerOwn : Nat
  /-- The model's own: a code of the display's own state (10_state.md R34). -/
  displayOwn : Nat
deriving DecidableEq, Repr, Inhabited

/-- The block right after its construction with the parameters `p` and the contents of `BUS_EXT`, the cartridge image
among them (70_reset_and_hazards.md R126 to R132). -/
def State.resetFor (p : Params) (contents : List Host.Cell) : State where
  params := p
  regs := resetRegs p.initRegs
  ime := false
  imePending := false
  halt := false
  stop := false
  intFlag := p.ifReset
  intEnable := p.ieReset
  speed := .normal
  switchPending := false
  totalTicks := 0
  budget := 0
  frameCount := 0
  buttons := 0xF
  directions := 0xF
  select := p.joypResetSelect
  fault := none
  mem := Memory.load contents
  ticks := 0
  hostCalls := []
  framesResult := 0
  imageResult := []
  timerOwn := 0
  displayOwn := 0

/-- The machine right after reset: the default parameters, the OPEN ones free, and no byte of `BUS_EXT` listed. -/
def State.reset : State := State.resetFor defaultParams []

end Sys2Proof.Machine

namespace Sys2Proof

/-- FREE VALUE. The fields other than `core.fault` after a fault (00_scope.md R9; log 12). -/
opaque Config.stateAfterFault : Machine.Fault → Machine.State → Machine.State

end Sys2Proof
end

