-- ==== Sys2Proof/Machine/Fields.lean ====
section
/-! DEFINITION. The update of each field of State under a name of its own, and PC and SP. `params` has none: no step
writes a construction parameter (10_state.md R24). -/

namespace Sys2Proof.Machine

/-- `PC` (10_state.md R19). -/
abbrev State.pc (s : State) : Word := s.regs.pc

/-- `SP` (10_state.md R20). -/
abbrev State.sp (s : State) : Word := s.regs.sp

def State.setRegs (s : State) (v : Regs) : State := { s with regs := v }
def State.setIme (s : State) (v : Bool) : State := { s with ime := v }
def State.setImePending (s : State) (v : Bool) : State := { s with imePending := v }
def State.setHalt (s : State) (v : Bool) : State := { s with halt := v }
def State.setStop (s : State) (v : Bool) : State := { s with stop := v }
def State.setIntFlag (s : State) (v : Byte) : State := { s with intFlag := v }
def State.setIntEnable (s : State) (v : Byte) : State := { s with intEnable := v }
def State.setSpeed (s : State) (v : Speed) : State := { s with speed := v }
def State.setSwitchPending (s : State) (v : Bool) : State := { s with switchPending := v }
def State.setTotalTicks (s : State) (v : Count) : State := { s with totalTicks := v }
def State.setBudget (s : State) (v : Int) : State := { s with budget := v }
def State.setFrameCount (s : State) (v : Count) : State := { s with frameCount := v }
def State.setButtons (s : State) (v : Nibble) : State := { s with buttons := v }
def State.setDirections (s : State) (v : Nibble) : State := { s with directions := v }
def State.setSelect (s : State) (v : JoypSelect) : State := { s with select := v }
def State.setFault (s : State) (v : Option Fault) : State := { s with fault := v }
def State.setMem (s : State) (v : Memory) : State := { s with mem := v }
def State.setTicks (s : State) (v : Nat) : State := { s with ticks := v }
def State.setHostCalls (s : State) (v : List HostCall) : State := { s with hostCalls := v }
def State.setFramesResult (s : State) (v : Count) : State := { s with framesResult := v }
def State.setImageResult (s : State) (v : List Byte) : State := { s with imageResult := v }
def State.setTimerOwn (s : State) (v : Nat) : State := { s with timerOwn := v }
def State.setDisplayOwn (s : State) (v : Nat) : State := { s with displayOwn := v }

/-- `pc <- v`. -/
def State.setPc (s : State) (v : Word) : State := s.setRegs { s.regs with pc := v }

/-- `SP <- v`. -/
def State.setSp (s : State) (v : Word) : State := s.setRegs { s.regs with sp := v }

end Sys2Proof.Machine
end

