-- ==== Sys2Proof/Machine/Flags.lean ====
section
/-! DEFINITION. The flags register (10_state.md R17). The spec places the four flags and computes none: which
instruction writes which flag belongs to the excluded opcode table (10_state.md R18). -/

namespace Sys2Proof.Machine

/-- `Z` is F[7] (10_state.md R17). -/
def State.flagZ (s : State) : Bool := s.regs.f.getLsbD 7

/-- `N` is F[6] (10_state.md R17). -/
def State.flagN (s : State) : Bool := s.regs.f.getLsbD 6

/-- `H` is F[5] (10_state.md R17). -/
def State.flagH (s : State) : Bool := s.regs.f.getLsbD 5

/-- `C` is F[4] (10_state.md R17). -/
def State.flagC (s : State) : Bool := s.regs.f.getLsbD 4

/-- What F holds after a write of `v`: bits 3:0 stay 0 (10_state.md R17). -/
def flagBits (v : Byte) : Byte := v &&& 0xF0

end Sys2Proof.Machine
end

