-- ==== Sys2Proof/Machine/Operands.lean ====
section
/-! DEFINITION. The operand forms of the block: registers and pairs (10_state.md R15, R16), single bits, and the
encodings of the interrupt sources, KEY1, the joypad select code and the buttons (30_encoding.md R61 to R63,
10_state.md R32). -/

namespace Sys2Proof.Machine

/-! ### Registers and pairs -/

/-- `x[r]` (10_state.md R15). -/
def State.readReg8 (s : State) : Reg8 → Byte
  | .a => s.regs.a
  | .f => s.regs.f
  | .b => s.regs.b
  | .c => s.regs.c
  | .d => s.regs.d
  | .e => s.regs.e
  | .h => s.regs.h
  | .l => s.regs.l

/-- `x[r] <- v` (10_state.md R15); F[3:0] stay 0 (R17). -/
def State.writeReg8 (s : State) (r : Reg8) (v : Byte) : State :=
  match r with
  | .a => s.setRegs { s.regs with a := v }
  | .f => s.setRegs { s.regs with f := flagBits v }
  | .b => s.setRegs { s.regs with b := v }
  | .c => s.setRegs { s.regs with c := v }
  | .d => s.setRegs { s.regs with d := v }
  | .e => s.setRegs { s.regs with e := v }
  | .h => s.setRegs { s.regs with h := v }
  | .l => s.setRegs { s.regs with l := v }

/-- The register that is the high byte of a pair (10_state.md R16). -/
def Reg16High : Reg16 → Reg8
  | .af => .a
  | .bc => .b
  | .de => .d
  | .hl => .h

/-- The register that is the low byte of a pair (10_state.md R16). -/
def Reg16Low : Reg16 → Reg8
  | .af => .f
  | .bc => .c
  | .de => .e
  | .hl => .l

/-- `x[rr]` (10_state.md R16). -/
def State.readReg16 (s : State) (rr : Reg16) : Word :=
  joinBytes (s.readReg8 (Reg16High rr)) (s.readReg8 (Reg16Low rr))

/-- `x[rr] <- v`: both registers in one step (10_state.md R16). -/
def State.writeReg16 (s : State) (rr : Reg16) (v : Word) : State :=
  (s.writeReg8 (Reg16High rr) (highByte v)).writeReg8 (Reg16Low rr) (lowByte v)

/-! ### Single bits -/

/-- `v` with bit `i` set. -/
def setBitAt {w : Nat} (v : BitVec w) (i : Nat) : BitVec w := v ||| (1#w <<< i)

/-- `v` with bit `i` cleared. -/
def clearBitAt {w : Nat} (v : BitVec w) (i : Nat) : BitVec w := v &&& ~~~(1#w <<< i)

/-- `lowest_set(v)`, the index of the least significant 1 bit; `none` for zero (00_scope.md R9). -/
def lowestSet (v : Byte) : Option Nat := (List.range 8).find? (fun i => v.getLsbD i)

/-! ### Interrupt sources -/

/-- The five interrupt sources (60_exceptions.md R100). -/
inductive InterruptSource where
  | vblank | displayStatus | timer | serial | joypad
deriving DecidableEq, Repr, Inhabited

/-- The bit of IF and IE a source owns (30_encoding.md R61). -/
def interruptBit : InterruptSource → Nat
  | .vblank => 0
  | .displayStatus => 1
  | .timer => 2
  | .serial => 3
  | .joypad => 4

/-- `VECTOR[i]` (30_encoding.md R61). -/
def interruptVector (src : InterruptSource) : Word := 0x0040 + 8 * BitVec.ofNat 16 (interruptBit src)

/-- The source of an index; an index of 5 or more has none (30_encoding.md R61). -/
def interruptSourceAt : Nat → Option InterruptSource
  | 0 => some .vblank
  | 1 => some .displayStatus
  | 2 => some .timer
  | 3 => some .serial
  | 4 => some .joypad
  | _ + 5 => none

/-! ### Clock modes and KEY1 -/

/-- `mult` (42_driver_step.md R87). -/
def speedMultiplier : Speed → Nat
  | .normal => 4
  | .double => 2

/-- `flip` (42_driver_step.md R84). -/
def flipSpeed : Speed → Speed
  | .normal => .double
  | .double => .normal

/-- `Key1Read()` (42_driver_step.md R91). -/
def State.key1Read (s : State) : Byte :=
  match s.params.target with
  | .color =>
    (match s.speed with | .double => 0x80 | .normal => 0x00) ||| 0x7E ||| (BitVec.ofBool s.switchPending).setWidth 8
  | .mono => 0xFF

/-- `Key1Write(v)` (42_driver_step.md R91). -/
def State.key1Write (s : State) (v : Byte) : State :=
  match s.params.target with
  | .color => s.setSwitchPending (v.getLsbD 0)
  | .mono => s

/-! ### The joypad register -/

/-- The column a joypad write selects, by `v[5:4]`; `none` is the no-op code (30_encoding.md R63). -/
def joypColumn (v : Byte) : Option JoypSelect :=
  match v.getLsbD 5, v.getLsbD 4 with
  | false, true => some .buttons
  | true, false => some .directions
  | false, false => some .both
  | true, true => none

/-- `JoypWrite(v)` (60_exceptions.md R121). -/
def State.joypWrite (s : State) (v : Byte) : State :=
  match joypColumn v with
  | some c => s.setSelect c
  | none => s

/-- `JoypRead()` (60_exceptions.md R122). -/
def State.joypRead (s : State) : Byte :=
  match s.select with
  | .buttons => s.buttons.setWidth 8
  | .directions => s.directions.setWidth 8
  | .both => s.params.joypMultiValue

/-- The bit of a button in its nibble (10_state.md R32). -/
def buttonBit : Button → Nat
  | .a => 0
  | .b => 1
  | .select => 2
  | .start => 3
  | .right => 0
  | .left => 1
  | .up => 2
  | .down => 3

/-- Whether a button is one of the direction keys (10_state.md R32). -/
def isDirection : Button → Bool
  | .a | .b | .select | .start => false
  | .right | .left | .up | .down => true

/-- A change of the nibble of a button (60_exceptions.md R119). -/
def State.mapNibble (s : State) (key : Button) (f : Nibble → Nibble) : State :=
  if isDirection key then s.setDirections (f s.directions) else s.setButtons (f s.buttons)

end Sys2Proof.Machine
end

