-- ==== Sys2Proof/Machine/Ops.lean ====
section
/-! DEFINITION. The shared operations: the bus, fetch, push and pop (20_memory.md), raising an interrupt, taking one
and returning from one (60_exceptions.md), and what a fault leaves. -/

namespace Sys2Proof.Machine

/-- The outcome of a step or of part of one. -/
abbrev Result := Host.Outcome State Fault Refusal

/-- Go on with the next state; a fault or a refusal ends the step (00_scope.md R9). -/
def bindNext (r : Result) (k : State → Result) : Result :=
  match r with
  | .next s => k s
  | .fault f => .fault f
  | .refused f => .refused f

/-! ### The bus -/

/-- `MemRead(addr, 1)` (20_memory.md R40, R45). -/
def memRead (s : State) (a : Word) : Byte :=
  match busTarget a with
  | .intFlag => s.intFlag
  | .intEnable => s.intEnable
  | .joypad => s.joypRead
  | .key1 => s.key1Read
  | .ext => Memory.read s.mem a.toNat

/-- `MemWrite(addr, 1, v)` (20_memory.md R40, R45). -/
def memWrite (s : State) (a : Word) (v : Byte) : State :=
  match busTarget a with
  | .intFlag => s.setIntFlag v
  | .intEnable => s.setIntEnable v
  | .joypad => s.joypWrite v
  | .key1 => s.key1Write v
  | .ext => s.setMem (Memory.write s.mem a.toNat v)

/-- `FetchByte()`: the byte at PC, and the state with PC past it (20_memory.md R41). -/
def fetchByte (s : State) : Byte × State := (memRead s s.pc, s.setPc (s.pc + 1))

/-- One byte of a push: `SP <- SP - 1; MemWrite(SP, 1, v)` (20_memory.md R53). -/
def pushByte (v : Byte) (s : State) : State := memWrite (s.setSp (s.sp - 1)) (s.sp - 1) v

/-- `Push16(v)`: high byte first, SP left at the low byte (20_memory.md R53). -/
def push16 (v : Word) (s : State) : State := pushByte (lowByte v) (pushByte (highByte v) s)

/-- `Pop16()`: the value, and the state with SP past it (20_memory.md R54). -/
def pop16 (s : State) : Word × State :=
  (joinBytes (memRead s (s.sp + 1)) (memRead s s.sp), s.setSp (s.sp + 2))

/-! ### Interrupts -/

/-- `bus.IF[i] <- 1` when `up` (60_exceptions.md R101). -/
def raiseWhen (up : Bool) (src : InterruptSource) (s : State) : State :=
  s.setIntFlag (if up then setBitAt s.intFlag (interruptBit src) else s.intFlag)

/-- Clear `cpu.halt` and `cpu.stop` (60_exceptions.md R109). -/
def wake (s : State) : State := (s.setHalt false).setStop false

/-- Taking an interrupt (60_exceptions.md R108): clear the IF bit and IME, push PC, go to the vector, and charge one
base cycle. The clearing of `cpu.halt` and `cpu.stop` comes first, as R108 orders it. -/
def dispatchInterrupt (src : InterruptSource) (s : State) : State :=
  let s1 := wake s
  let s2 := s1.setIntFlag (clearBitAt s1.intFlag (interruptBit src))
  let s3 := s2.setIme false
  let s4 := push16 s3.pc s3
  let s5 := s4.setPc (interruptVector src)
  s5.setTicks (s5.ticks + 1)

/-- Returning from an interrupt: pop PC and set IME at once (40_cpu_state_machine.md R72, 60_exceptions.md R112). -/
def returnFromInterrupt (s : State) : State :=
  ((pop16 s).2.setPc (pop16 s).1).setIme true

/-! ### Faults -/

/-- The block after a fault: `core.fault` is set, every other field is free (00_scope.md R9, 60_exceptions.md R115;
log 12). -/
def recordFault (f : Fault) (s : State) : State := (Config.stateAfterFault f s).setFault (some f)

/-- The state the block is in once a step from `s` has answered `r`. -/
def settle (s : State) (r : Result) : State :=
  match r with
  | .next t => t
  | .fault f => recordFault f s
  | .refused _ => s

end Sys2Proof.Machine
end

