-- ==== Sys2Proof/Machine/Executor.lean ====
section
/-! DEFINITION. The delegated opcodes: `EXEC(op)` under the contract of 41_executor_contract.md (log 2, log 3). -/

namespace Sys2Proof.Machine

/-- The tree of an opcode byte, or of the byte `second` after the prefix 0xCB (30_encoding.md R58, R60). -/
def executorProgram (x : Executor) (op second : Byte) : ExecTree :=
  if op = 0xCB then (x.cbOps.lookup second).getD .fault else (x.ops.lookup op).getD .fault

/-- Bit `i` of what the executor reads (41_executor_contract.md R73). -/
def readSource (src : ExecSource) (last : Byte) (s : State) (i : Nat) : Bool :=
  match src with
  | .reg8 r => (s.readReg8 r).getLsbD i
  | .sp => s.sp.getLsbD i
  | .pc => s.pc.getLsbD i
  | .ime => s.ime
  | .imePending => s.imePending
  | .halt => s.halt
  | .stop => s.stop
  | .lastByte => last.getLsbD i

/-- Run the executor on the opcode byte `op`: each write and each bus access in order, and the base cost left in
`ticks`; a fault names the opcode byte (41_executor_contract.md R73, R74, R76, R77, R79). -/
def runExecTree (op : Byte) : ExecTree → Byte → State → Result
  | .done cost, _, s => .next (s.setTicks cost)
  | .fault, _, _ => .fault (.undefinedOpcode op)
  | .testBit src i k m, last, s =>
    if readSource src last s i then runExecTree op k last s else runExecTree op m last s
  | .writeReg8 r v k, last, s => runExecTree op k last (s.writeReg8 r v)
  | .writeReg16 rr v k, last, s => runExecTree op k last (s.writeReg16 rr v)
  | .writeSp v k, last, s => runExecTree op k last (s.setSp v)
  | .writePc v k, last, s => runExecTree op k last (s.setPc v)
  | .writeIme v k, last, s => runExecTree op k last (s.setIme v)
  | .memRead a k, _, s => runExecTree op k (memRead s a) s
  | .memWrite a v k, last, s => runExecTree op k last (memWrite s a v)
  | .fetchByte k, _, s => runExecTree op k (fetchByte s).1 (fetchByte s).2

/-- The addresses the executor stores to when it runs from `s`. -/
def storedAddresses : ExecTree → Byte → State → List Word
  | .done _, _, _ => []
  | .fault, _, _ => []
  | .testBit src i k m, last, s =>
    if readSource src last s i then storedAddresses k last s else storedAddresses m last s
  | .writeReg8 r v k, last, s => storedAddresses k last (s.writeReg8 r v)
  | .writeReg16 rr v k, last, s => storedAddresses k last (s.writeReg16 rr v)
  | .writeSp v k, last, s => storedAddresses k last (s.setSp v)
  | .writePc v k, last, s => storedAddresses k last (s.setPc v)
  | .writeIme v k, last, s => storedAddresses k last (s.setIme v)
  | .memRead a k, _, s => storedAddresses k (memRead s a) s
  | .memWrite a v k, last, s => a :: storedAddresses k last (memWrite s a v)
  | .fetchByte k, _, s => storedAddresses k (fetchByte s).1 (fetchByte s).2

/-- No path of the tree faults: the executor implements the operation whatever the state is. -/
def faultless : ExecTree → Bool
  | .done _ => true
  | .fault => false
  | .testBit _ _ k m => faultless k && faultless m
  | .writeReg8 _ _ k => faultless k
  | .writeReg16 _ _ k => faultless k
  | .writeSp _ k => faultless k
  | .writePc _ k => faultless k
  | .writeIme _ k => faultless k
  | .memRead _ k => faultless k
  | .memWrite _ _ k => faultless k
  | .fetchByte k => faultless k

/-- The state in which the tree of `op` starts: after the prefix 0xCB the executor has fetched the byte that selects
the operation (30_encoding.md R60). -/
def enterExecutor (op : Byte) (s : State) : State := if op = 0xCB then (fetchByte s).2 else s

/-- The last byte fetched when the tree of `op` starts. -/
def entryByte (op : Byte) (s : State) : Byte := if op = 0xCB then (fetchByte s).1 else op

/-- The tree that runs on `op` in the state `s`. -/
def delegatedTree (op : Byte) (s : State) : ExecTree :=
  executorProgram s.params.executor op (entryByte op s)

/-- A delegated opcode: `EXEC(op)`, which faults on a byte it does not implement (41_executor_contract.md R73, R77). -/
def execDelegated (op : Byte) (s : State) : Result :=
  runExecTree op (delegatedTree op s) (entryByte op s) (enterExecutor op s)

end Sys2Proof.Machine
end

