-- ==== Sys2Proof/Machine/Illegal.lean ====
section
/-! DEFINITION. The eleven bytes with no instruction (30_encoding.md R59). -/

namespace Sys2Proof.Machine

/-- `raise Fault(UndefinedOpcode(op))` (41_executor_contract.md R77). -/
def raiseUndefined (op : Byte) (_s : State) : Result := .fault (.undefinedOpcode op)

/-- The byte 0xD3 (30_encoding.md R59). -/
def execIllegalD3 (s : State) : Result := raiseUndefined 0xD3 s

/-- The byte 0xDB (30_encoding.md R59). -/
def execIllegalDB (s : State) : Result := raiseUndefined 0xDB s

/-- The byte 0xDD (30_encoding.md R59). -/
def execIllegalDD (s : State) : Result := raiseUndefined 0xDD s

/-- The byte 0xE3 (30_encoding.md R59). -/
def execIllegalE3 (s : State) : Result := raiseUndefined 0xE3 s

/-- The byte 0xE4 (30_encoding.md R59). -/
def execIllegalE4 (s : State) : Result := raiseUndefined 0xE4 s

/-- The byte 0xEB (30_encoding.md R59). -/
def execIllegalEB (s : State) : Result := raiseUndefined 0xEB s

/-- The byte 0xEC (30_encoding.md R59). -/
def execIllegalEC (s : State) : Result := raiseUndefined 0xEC s

/-- The byte 0xED (30_encoding.md R59). -/
def execIllegalED (s : State) : Result := raiseUndefined 0xED s

/-- The byte 0xF4 (30_encoding.md R59). -/
def execIllegalF4 (s : State) : Result := raiseUndefined 0xF4 s

/-- The byte 0xFC (30_encoding.md R59). -/
def execIllegalFC (s : State) : Result := raiseUndefined 0xFC s

/-- The byte 0xFD (30_encoding.md R59). -/
def execIllegalFD (s : State) : Result := raiseUndefined 0xFD s

end Sys2Proof.Machine
end

