-- ==== Sys2Proof/Machine/InterruptControl.lean ====
section
/-! DEFINITION. EI, DI and RETI (40_cpu_state_machine.md R70 to R72). -/

namespace Sys2Proof.Machine

/-- EI (40_cpu_state_machine.md R70). -/
def execEi (s : State) : Result := .next ((s.setImePending true).setTicks s.params.coreCost.ei)

/-- DI (40_cpu_state_machine.md R71). -/
def execDi (s : State) : Result :=
  .next (((s.setIme false).setImePending false).setTicks s.params.coreCost.di)

/-- RETI (40_cpu_state_machine.md R72). -/
def execReti (s : State) : Result := .next ((returnFromInterrupt s).setTicks s.params.coreCost.reti)

end Sys2Proof.Machine
end

