-- ==== Sys2Proof/Machine/RunMode.lean ====
section
/-! DEFINITION. NOP, HALT and STOP (40_cpu_state_machine.md R67 to R69). A meaning runs with PC past the opcode byte
and leaves its base cost in `ticks`. -/

namespace Sys2Proof.Machine

/-- NOP (40_cpu_state_machine.md R67). -/
def execNop (s : State) : Result := .next (s.setTicks s.params.coreCost.nop)

/-- HALT (40_cpu_state_machine.md R68). -/
def execHalt (s : State) : Result := .next ((s.setHalt true).setTicks s.params.coreCost.halt)

/-- `if STOP_LENGTH = 2 then discard <- FetchByte()`: the fetch moves PC and reads no byte with a side effect
(40_cpu_state_machine.md R69, 20_memory.md R44; log 17). -/
def skipStopByte (s : State) : State :=
  s.setPc (match s.params.stopLength with | .two => (fetchByte s).2.pc | .one => s.pc)

/-- STOP (40_cpu_state_machine.md R69). -/
def execStop (s : State) : Result :=
  .next (((skipStopByte s).setStop true).setTicks s.params.coreCost.stop)

end Sys2Proof.Machine
end

