-- ==== Sys2Proof/Machine/Driver.lean ====
section
/-! DEFINITION. The interrupt controller (60_exceptions.md R105) and the driver step (42_driver_step.md R89). -/

namespace Sys2Proof.Machine

/-- `InterruptController()`; the cycle it charges is added to `ticks` (60_exceptions.md R104 to R109). -/
def interruptController (s : State) : Result :=
  if s.ime || s.halt then
    match lowestSet (s.intFlag &&& s.intEnable) with
    | none => .next s
    | some i =>
      match interruptSourceAt i with
      | none => .fault (.badInterruptIndex i)
      | some src => .next (if s.ime then dispatchInterrupt src s else wake s)
  else .next s

/-- Part 1: the EI latch becomes IME (42_driver_step.md R82). -/
def resolveLatch (s : State) : State :=
  if s.imePending then (s.setIme true).setImePending false else s

/-- `cpu.halt = 0` and `cpu.stop = 0` (10_state.md R23). -/
def isRunning (s : State) : Bool := !s.halt && !s.stop

/-- Part 2 in the Running state: fetch, decode, execute; a cost of 0 is a fault (42_driver_step.md R83). -/
def runInstruction (s : State) : Result :=
  bindNext (exec (decodeOpcode (fetchByte s).1) (fetchByte s).2) fun t =>
    if t.ticks = 0 then .fault (.zeroCostStep (fetchByte s).1) else .next t

/-- `cpu.stop = 1`, a switch pending and `TARGET = Color` (42_driver_step.md R84). -/
def mustSwitch (s : State) : Bool := s.stop && s.switchPending && decide (s.params.target = .color)

/-- The speed switch (42_driver_step.md R84). -/
def switchSpeed (s : State) : State :=
  (((s.setSpeed (flipSpeed s.speed)).setSwitchPending false).setStop false).setTicks 1

/-- Part 2: an instruction, the speed switch, or an idle base cycle (42_driver_step.md R83 to R85). -/
def partTwo (s : State) : Result :=
  if isRunning s then runInstruction s
  else if mustSwitch s then .next (switchSpeed s)
  else .next (s.setTicks 1)

/-- Part 4: base cycles to clock ticks (42_driver_step.md R87). -/
def scaleTicks (s : State) : State := s.setTicks (s.ticks * speedMultiplier s.speed)

/-- Part 5: the tick counter (42_driver_step.md R88). -/
def countTicks (s : State) : State := s.setTotalTicks (s.totalTicks + BitVec.ofNat 64 s.ticks)

/-- The block has a step only while `core.fault = None` (42_driver_step.md R81, 60_exceptions.md R115). -/
def whileSound (s : State) (k : State → Result) : Result :=
  match s.fault with
  | some f => .fault f
  | none => k s

/-- `exec()`: one driver step; the ticks it returns are left in `ticks` (42_driver_step.md R89). -/
def driverStep (s : State) : Result :=
  whileSound s fun s =>
    bindNext (partTwo (resolveLatch s)) fun t =>
      bindNext (interruptController t) fun u =>
        .next (countTicks (scaleTicks u))

end Sys2Proof.Machine
end

