-- ==== Sys2Proof/Machine/Scheduler.lean ====
section
/-! DEFINITION. The peripheral port, the frame scheduler (43_frame_scheduler.md) and the host's calls (00_scope.md
R12). A frame is in progress while the budget is positive (log 14). -/

namespace Sys2Proof.Machine

/-- `TIMER_STEP(ticks)`: it changes its own state and may raise source 2 (43_frame_scheduler.md R95, 60_exceptions.md
R100; log 8). -/
def timerStep (s : State) : State :=
  let r := Config.timerStep s.timerOwn s.ticks (memRead s)
  raiseWhen r.overflow .timer (s.setTimerOwn r.own)

/-- `DISPLAY_STEP(ticks)`: it changes its own state and may raise sources 0 and 1 (43_frame_scheduler.md R95,
60_exceptions.md R100; log 8). -/
def displayStep (s : State) : State :=
  let r := Config.displayStep s.displayOwn s.ticks (memRead s)
  raiseWhen r.status .displayStatus (raiseWhen r.vblank .vblank (s.setDisplayOwn r.own))

/-- `sched.budget <- sched.budget - t` (43_frame_scheduler.md R93, against a sentence of R94: log 19). -/
def chargeBudget (s : State) : State := s.setBudget (s.budget - s.ticks)

/-- The end of the loop of `frame()`: once the budget is not positive the frame is complete
(43_frame_scheduler.md R93). -/
def finishIfSpent (s : State) : State :=
  s.setFrameCount (if s.budget ≤ 0 then s.frameCount + 1 else s.frameCount)

/-- The entry of `frame()` (43_frame_scheduler.md R93). -/
def beginFrame (s : State) : State := finishIfSpent (s.setBudget (s.budget + (s.params.frameTicks : Nat)))

/-- One pass of the loop of `frame()`: a driver step, the timer, the display, the budget (43_frame_scheduler.md R93). -/
def frameIteration (s : State) : Result :=
  bindNext (driverStep s) fun t => .next (finishIfSpent (chargeBudget (displayStep (timerStep t))))

/-- The loop of `frame()`, for at most `fuel` passes (43_frame_scheduler.md R93). -/
def frameLoop : Nat → State → Result
  | 0, s => .next s
  | fuel + 1, s => if 0 < s.budget then bindNext (frameIteration s) (frameLoop fuel) else .next s

/-- `frame()` run to its end; `fuel` bounds its driver steps (43_frame_scheduler.md R93, R96). -/
def frame (fuel : Nat) (s : State) : Result := frameLoop fuel (beginFrame s)

/-- `frames()`: the count goes to the host and the counter to 0 (43_frame_scheduler.md R97). -/
def drainFrames (s : State) : State := (s.setFramesResult s.frameCount).setFrameCount 0

/-- `keydown(b)` (60_exceptions.md R119). -/
def keyDown (key : Button) (s : State) : State :=
  raiseWhen true .joypad (s.mapNibble key (fun n => clearBitAt n (buttonBit key)))

/-- `keyup(b)` (60_exceptions.md R120). -/
def keyUp (key : Button) (s : State) : State := s.mapNibble key (fun n => setBitAt n (buttonBit key))

/-- `image()`: the display's frame buffer goes to the host unchanged; the core neither reads nor writes it
(43_frame_scheduler.md R98). -/
def handOutImage (s : State) : State := s.setImageResult (Config.displayImage s.displayOwn)

/-- One call of the host port (00_scope.md R12). -/
def performCall (c : HostCall) (s : State) : State :=
  match c with
  | .frame => beginFrame s
  | .frames => drainFrames s
  | .image => handOutImage s
  | .keydown key => keyDown key s
  | .keyup key => keyUp key s

/-- The host's next call: the oldest in the list, and `frame()` when the list is empty (log 10). -/
def hostTurn (s : State) : State :=
  match s.hostCalls with
  | [] => beginFrame s
  | c :: rest => performCall c (s.setHostCalls rest)

/-- Where `withFetchWord` places an instruction: PC, or the entry point when a byte placed at PC would fall on a core
register (log 18). -/
def fetchSite (pc : Word) : Word :=
  if busTarget pc = .ext ∧ busTarget (pc + 1) = .ext then pc else 0x0100

/-- The two bytes of a table word at `site`, and a frame in progress with the CPU Running, so that the next step
fetches there (log 18). -/
def placeInstruction (s : State) (site : Word) (first second : Byte) : State :=
  let s1 := s.setPc site
  let s2 := memWrite (memWrite s1 site first) (site + 1) second
  let s3 := ((s2.setHalt false).setStop false).setFault none
  s3.setBudget (if 0 < s3.budget then s3.budget else (s3.params.frameTicks : Nat))

end Sys2Proof.Machine
end

