-- ==== Sys2Proof/Machine/Step.lean ====
section
/-! DEFINITION. One step of the block: a pass of the frame loop while a frame is in progress, and otherwise the host's
next call (log 10, log 14). -/

namespace Sys2Proof.Machine

/-- One step of the block. A block with a fault set has none (60_exceptions.md R115). -/
def step (s : State) : Host.Outcome State Fault Refusal :=
  whileSound s fun s => if 0 < s.budget then frameIteration s else .next (hostTurn s)

/-- `s` with the instruction of a table word stored where the next step fetches (log 18). -/
def State.withFetchWord (s : State) (nbits w : Nat) : State :=
  match tableBytes nbits w with
  | [first, second] => placeInstruction s (fetchSite s.pc) first second
  | _ => s

end Sys2Proof.Machine
end

