-- ==== Sys2Proof/Safety.lean ====
section
/-! DEFINITION. What claims call a sound state and a safe run. -/

namespace Sys2Proof.Machine

/-- `F[3:0]` are 0 (10_state.md R17). -/
abbrev FlagsSound (s : State) : Prop := s.regs.f &&& 0x0F = 0

/-- `¬(cpu.halt ∧ cpu.stop)` (40_cpu_state_machine.md R66). -/
abbrev ModeSound (s : State) : Prop := ¬(s.halt = true ∧ s.stop = true)

/-- The invariant of the block: the byte store in canonical form, F[3:0] zero, and a legal run mode. -/
abbrev Sound (s : State) : Prop := Memory.wf s.mem ∧ FlagsSound s ∧ ModeSound s

/-- No fault is set (10_state.md R35). -/
abbrev FaultFree (s : State) : Prop := s.fault = none

/-- The CPU is Running (10_state.md R23). -/
abbrev Running (s : State) : Prop := s.halt = false ∧ s.stop = false

/-- A frame is in progress (43_frame_scheduler.md R93; log 14). -/
abbrev InFrame (s : State) : Prop := 0 < s.budget

/-- Stopped with nothing that could end it: IME = 0, no EI latch, and no legal speed switch pending
(70_reset_and_hazards.md R138). -/
abbrev HungStopped (s : State) : Prop :=
  s.halt = false ∧ s.stop = true ∧ s.ime = false ∧ s.imePending = false ∧
    (s.params.target = .mono ∨ s.switchPending = false)

/-- The first `k` steps from `s` all answer a next state, and `t` is the last of them. -/
def SafeRun (k : Nat) (s t : State) : Prop := Host.Core.run Sys2Proof.core k s = .next t

end Sys2Proof.Machine
end

