-- ==== Sys2Proof/Certificates/Slice0/Obligations.lean ====
section
/-! DEFINITION. The statements for the provers. Each docstring names the rule of spec/ it formalises. -/

open Sys2Proof Sys2Proof.Machine

/-! ## Encoding -/

/-- 30_encoding.md R56, R59: the word of each core instruction and of three of the illegal bytes, and the prefix. -/
def Obligations.OpcodeWordsDecode : Prop :=
  decodeTableWord 8 0x00 = some .nop ∧ decodeTableWord 8 0x10 = some .stop ∧
  decodeTableWord 8 0x76 = some .halt ∧ decodeTableWord 8 0xD9 = some .reti ∧
  decodeTableWord 8 0xF3 = some .di ∧ decodeTableWord 8 0xFB = some .ei ∧
  decodeTableWord 8 0xCB = some (.delegated 0xCB) ∧ decodeTableWord 8 0xD3 = some .illegalD3 ∧
  decodeTableWord 8 0xED = some .illegalED ∧ decodeTableWord 8 0xFD = some .illegalFD

/-- 30_encoding.md R55, R56, R58, R59: decoding the encoding of a well-formed instruction gives it back, with the
bytes after it left over. -/
def Obligations.DecodeOfEncodeIsTheInstruction : Prop :=
  ∀ (i : Instr) (rest : List Byte), i.wf = true → decode (encode i ++ rest) = .ok (i, rest)

/-- 30_encoding.md R55, R56, R58, R59: the decoder rejects nothing but the empty list; what it reads is well formed,
encodes to the bytes read, and is core, illegal or delegated as its byte is. -/
def Obligations.EncodeOfDecodeIsTheBytes : Prop :=
  ∀ (bytes : List Byte), bytes ≠ [] →
    ∃ i rest, decode bytes = .ok (i, rest) ∧ i.wf = true ∧ encode i ++ rest = bytes ∧
      i.opcodeClass = opcodeClass (bytes.headD 0)

/-! ## Registers and flags -/

/-- 10_state.md R16, R17: a pair reads as high byte then low byte; writing a pair writes both of its registers and no
other; F keeps its low four bits 0. -/
def Obligations.PairsAliasTheirRegisters : Prop :=
  ∀ (s : State) (v : Word),
    (s.readReg16 .af = s.regs.a ++ s.regs.f ∧ s.readReg16 .bc = s.regs.b ++ s.regs.c ∧
      s.readReg16 .de = s.regs.d ++ s.regs.e ∧ s.readReg16 .hl = s.regs.h ++ s.regs.l) ∧
    s.writeReg16 .af v = { s with regs := { s.regs with a := v.extractLsb' 8 8, f := v.extractLsb' 0 8 &&& 0xF0 } } ∧
    s.writeReg16 .bc v = { s with regs := { s.regs with b := v.extractLsb' 8 8, c := v.extractLsb' 0 8 } } ∧
    s.writeReg16 .de v = { s with regs := { s.regs with d := v.extractLsb' 8 8, e := v.extractLsb' 0 8 } } ∧
    s.writeReg16 .hl v = { s with regs := { s.regs with h := v.extractLsb' 8 8, l := v.extractLsb' 0 8 } } ∧
    (∀ rr, rr ≠ .af → (s.writeReg16 rr v).readReg16 rr = v)

/-- 10_state.md R17: a write to F or to AF sets Z, N, H and C from bits 7 to 4 and leaves F[3:0] zero. -/
def Obligations.FlagWritesKeepLowBitsZero : Prop :=
  ∀ (s : State) (v : Byte) (w : Word),
    ((s.writeReg8 .f v).flagZ = v.getLsbD 7 ∧ (s.writeReg8 .f v).flagN = v.getLsbD 6 ∧
      (s.writeReg8 .f v).flagH = v.getLsbD 5 ∧ (s.writeReg8 .f v).flagC = v.getLsbD 4 ∧
      (s.writeReg8 .f v).readReg8 .f &&& 0x0F = 0) ∧
    ((s.writeReg16 .af w).flagZ = w.getLsbD 7 ∧ (s.writeReg16 .af w).flagN = w.getLsbD 6 ∧
      (s.writeReg16 .af w).flagH = w.getLsbD 5 ∧ (s.writeReg16 .af w).flagC = w.getLsbD 4 ∧
      (s.writeReg16 .af w).readReg8 .f &&& 0x0F = 0)

/-! ## The bus -/

/-- 20_memory.md R45, 42_driver_step.md R91, 60_exceptions.md R121, R122: what a load from each core register address
returns, what a store to it does, and that the store does nothing else. -/
def Obligations.CoreRegistersOnTheBus : Prop :=
  ∀ (s : State) (v : Byte),
    (memRead s 0xFF0F = s.intFlag ∧ memWrite s 0xFF0F v = { s with intFlag := v }) ∧
    (memRead s 0xFFFF = s.intEnable ∧ memWrite s 0xFFFF v = { s with intEnable := v }) ∧
    ((s.select = .buttons → memRead s 0xFF00 = s.buttons.setWidth 8) ∧
      (s.select = .directions → memRead s 0xFF00 = s.directions.setWidth 8) ∧
      (s.select = .both → memRead s 0xFF00 = s.params.joypMultiValue)) ∧
    ((v.extractLsb' 4 2 = 0b01 → memWrite s 0xFF00 v = { s with select := .buttons }) ∧
      (v.extractLsb' 4 2 = 0b10 → memWrite s 0xFF00 v = { s with select := .directions }) ∧
      (v.extractLsb' 4 2 = 0b00 → memWrite s 0xFF00 v = { s with select := .both }) ∧
      (v.extractLsb' 4 2 = 0b11 → memWrite s 0xFF00 v = s)) ∧
    ((s.params.target = .color → memRead s 0xFF4D =
        (if s.speed = .double then 0x80 else 0x00) ||| 0x7E ||| (if s.switchPending = true then 0x01 else 0x00)) ∧
      (s.params.target = .mono → memRead s 0xFF4D = 0xFF)) ∧
    ((s.params.target = .color → memWrite s 0xFF4D v = { s with switchPending := v.getLsbD 0 }) ∧
      (s.params.target = .mono → memWrite s 0xFF4D v = s))

/-- 20_memory.md R39, R40, R48: a byte stored at a platform address reads back, no other address changes, and no field
but the byte store does. The byte store itself is the model's choice within R39 (log 4). -/
def Obligations.PlatformStoreReadsBack : Prop :=
  ∀ (s : State) (a : Word) (v : Byte), Memory.wf s.mem → busTarget a = .ext →
    memRead (memWrite s a v) a = v ∧ (∀ b, b ≠ a → memRead (memWrite s a v) b = memRead s b) ∧
    (∃ m, Memory.wf m ∧ memWrite s a v = { s with mem := m })

/-- 20_memory.md R41, R51, 70_reset_and_hazards.md R139: a byte stored at PC is the byte the next fetch returns, and a
fetch moves PC by 1, wrapping. The joypad register and KEY1 do not read back as written (R45), so PC is not there. The
byte store itself is the model's choice within R39 (log 4). -/
def Obligations.StoreIsSeenByTheNextFetch : Prop :=
  ∀ (s : State) (v : Byte), Memory.wf s.mem → s.pc ≠ 0xFF00 → s.pc ≠ 0xFF4D →
    (fetchByte (memWrite s s.pc v)).1 = v ∧
    (fetchByte (memWrite s s.pc v)).2.regs = { s.regs with pc := s.pc + 1 } ∧
    (s.pc = 0xFFFF → (fetchByte (memWrite s s.pc v)).2.pc = 0x0000)

/-- 20_memory.md R53: a push leaves SP two lower with the high byte above the low byte, changes no other address and
no register but SP; with SP = 0 its first byte goes to IE. The byte store itself is the model's choice within R39
(log 4). -/
def Obligations.PushStoresBelowSp : Prop :=
  ∀ (s : State) (v : Word), Memory.wf s.mem →
    (push16 v s).regs = { s.regs with sp := s.sp - 2 } ∧
    (busTarget (s.sp - 1) = .ext → memRead (push16 v s) (s.sp - 1) = v.extractLsb' 8 8) ∧
    (busTarget (s.sp - 2) = .ext → memRead (push16 v s) (s.sp - 2) = v.extractLsb' 0 8) ∧
    (s.sp = 0x0000 → (push16 v s).intEnable = v.extractLsb' 8 8) ∧
    (s.sp = 0x0001 → (push16 v s).intEnable = v.extractLsb' 0 8) ∧
    (s.sp = 0xFF10 → (push16 v s).intFlag = v.extractLsb' 8 8) ∧
    (s.sp = 0xFF11 → (push16 v s).intFlag = v.extractLsb' 0 8) ∧
    (∀ a, a ≠ s.sp - 1 → a ≠ s.sp - 2 → memRead (push16 v s) a = memRead s a)

/-- 20_memory.md R54: a pop after a push returns the value and restores SP, wherever neither byte falls on the joypad
register or KEY1, which do not read back as written (log 15). The byte store itself is the model's choice within R39
(log 4). -/
def Obligations.PopUndoesPush : Prop :=
  ∀ (s : State) (v : Word), Memory.wf s.mem →
    s.sp - 1 ≠ 0xFF00 → s.sp - 1 ≠ 0xFF4D → s.sp - 2 ≠ 0xFF00 → s.sp - 2 ≠ 0xFF4D →
    (pop16 (push16 v s)).1 = v ∧ (pop16 (push16 v s)).2.regs = s.regs

/-! ## The core instructions -/

/-- 40_cpu_state_machine.md R67: NOP does nothing but return its cost; in a driver step PC moves past its byte. -/
def Obligations.NopOnlyCharges : Prop :=
  ∀ s : State, exec .nop s = .next { s with ticks := s.params.coreCost.nop } ∧
    (s.fault = none → Running s → memRead s s.pc = 0x00 → s.params.coreCost.nop ≠ 0 →
      s.intFlag &&& s.intEnable = 0 →
      driverStep s = .next { s with
        regs := { s.regs with pc := s.pc + 1 }, ime := s.ime || s.imePending, imePending := false,
        ticks := s.params.coreCost.nop * speedMultiplier s.speed,
        totalTicks := s.totalTicks + BitVec.ofNat 64 (s.params.coreCost.nop * speedMultiplier s.speed) })

/-- 40_cpu_state_machine.md, HALT: HALT always enters Halted (a); while Halted nothing is fetched and each step charges
one base cycle (d). Clauses (b) and (c) are inferences the spec marks as its own (R68): a pending enabled interrupt
wakes the CPU in the same step (b), taken with IME = 1, so with PC at the address after HALT pushed (c), and left
pending with IME = 0. -/
def Obligations.HaltEntersHaltedAndWakesAtOnce : Prop :=
  (∀ s : State, exec .halt s = .next { s with halt := true, ticks := s.params.coreCost.halt }) ∧
  (∀ s u : State, s.fault = none → Running s → memRead s s.pc = 0x76 → s.params.coreCost.halt ≠ 0 →
    u = { s with
      regs := { s.regs with pc := s.pc + 1 }, ime := s.ime || s.imePending, imePending := false, halt := true,
      ticks := s.params.coreCost.halt } →
    (s.intFlag &&& s.intEnable = 0 → driverStep s = .next (countTicks (scaleTicks u))) ∧
    (∀ src, lowestSet (s.intFlag &&& s.intEnable) = some (interruptBit src) →
      (u.ime = true → driverStep s = .next (countTicks (scaleTicks (dispatchInterrupt src u)))) ∧
      (u.ime = false → driverStep s = .next (countTicks (scaleTicks { u with halt := false }))))) ∧
  (∀ s : State, s.fault = none → s.halt = true → s.stop = false → s.intFlag &&& s.intEnable = 0 →
    ∃ t, driverStep s = .next t ∧ t.regs = s.regs ∧ t.halt = true ∧ t.ticks = speedMultiplier s.speed)

/-- 40_cpu_state_machine.md, STOP: it fetches and discards a second byte when `STOP_LENGTH = 2`, enters Stopped, and
changes nothing else; the clock mode and the pending switch stay. -/
def Obligations.StopEntersStopped : Prop :=
  ∀ s : State,
    (s.params.stopLength = .two → exec .stop s = .next { s with
      regs := { s.regs with pc := s.pc + 1 }, stop := true, ticks := s.params.coreCost.stop }) ∧
    (s.params.stopLength = .one → exec .stop s = .next { s with stop := true, ticks := s.params.coreCost.stop })

/-- 40_cpu_state_machine.md, EI: it sets the latch and leaves IME and everything else. -/
def Obligations.EiSetsTheLatch : Prop :=
  ∀ s : State, exec .ei s = .next { s with imePending := true, ticks := s.params.coreCost.ei }

/-- 40_cpu_state_machine.md, DI: DI clears IME and the latch; the latch is 0 before any instruction (a); a CPU halted
with IME = 0 still wakes (c). Clause (b) is an inference the spec marks as its own (R71): no interrupt is dispatched in
DI's step, whatever is pending. -/
def Obligations.DiDisablesAtOnce : Prop :=
  (∀ s : State, exec .di s = .next { s with ime := false, imePending := false, ticks := s.params.coreCost.di }) ∧
  (∀ s : State, (resolveLatch s).imePending = false) ∧
  (∀ s : State, s.fault = none → Running s → memRead s s.pc = 0xF3 → s.params.coreCost.di ≠ 0 →
    ∃ t, driverStep s = .next t ∧ t.ime = false ∧ t.imePending = false ∧ t.intFlag = s.intFlag ∧
      t.regs = { s.regs with pc := s.pc + 1 }) ∧
  (∀ (s : State) (src : InterruptSource), s.ime = false → s.halt = true →
    lowestSet (s.intFlag &&& s.intEnable) = some (interruptBit src) →
    ∃ t, interruptController s = .next t ∧ t.halt = false ∧ t.ime = false)

/-- 40_cpu_state_machine.md, RETI: RETI pops PC, sets IME at once and leaves the latch (d), wherever SP is (c); with
SP = 0xFFFF the low byte is IE and the high byte is at 0x0000 (b). The last clause is an inference the spec marks as its
own (R72, a): the controller of RETI's step can take the next interrupt at once, from the PC just popped. -/
def Obligations.RetiPopsAndEnablesAtOnce : Prop :=
  (∀ s : State, exec .reti s = .next { s with
    regs := { s.regs with pc := memRead s (s.sp + 1) ++ memRead s s.sp, sp := s.sp + 2 },
    ime := true, ticks := s.params.coreCost.reti }) ∧
  (∀ s : State, s.sp = 0xFFFF → ∃ t, exec .reti s = .next t ∧ t.sp = 0x0001 ∧
    t.pc = memRead s 0x0000 ++ s.intEnable) ∧
  (∀ (s u : State) (src : InterruptSource), s.fault = none → Running s → memRead s s.pc = 0xD9 →
    s.params.coreCost.reti ≠ 0 → lowestSet (s.intFlag &&& s.intEnable) = some (interruptBit src) →
    u = { s with
      regs := { s.regs with pc := memRead s (s.sp + 1) ++ memRead s s.sp, sp := s.sp + 2 },
      ime := true, imePending := false, ticks := s.params.coreCost.reti } →
    driverStep s = .next (countTicks (scaleTicks (dispatchInterrupt src u))))

/-- 40_cpu_state_machine.md section 2, 10_state.md R18: the frame of NOP, HALT and STOP. No register but PC (STOP
only), no flag, no interrupt or bus field and no byte of memory changes; `halt` only by HALT, `stop` only by STOP. -/
def Obligations.NopHaltStopFrame : Prop :=
  ∀ (i : Instr) (s t : State), i = .nop ∨ i = .halt ∨ i = .stop → exec i s = .next t →
    t.regs = { s.regs with pc := t.pc } ∧ (i ≠ .stop → t.pc = s.pc) ∧
    (t.flagZ = s.flagZ ∧ t.flagN = s.flagN ∧ t.flagH = s.flagH ∧ t.flagC = s.flagC) ∧
    t.ime = s.ime ∧ t.imePending = s.imePending ∧ (i ≠ .halt → t.halt = s.halt) ∧ (i ≠ .stop → t.stop = s.stop) ∧
    t.intFlag = s.intFlag ∧ t.intEnable = s.intEnable ∧ t.speed = s.speed ∧ t.switchPending = s.switchPending ∧
    t.totalTicks = s.totalTicks ∧ t.budget = s.budget ∧ t.frameCount = s.frameCount ∧ t.buttons = s.buttons ∧
    t.directions = s.directions ∧ t.select = s.select ∧ t.fault = s.fault ∧ t.params = s.params ∧
    (∀ a, memRead t a = memRead s a)

/-- 40_cpu_state_machine.md section 2, 10_state.md R18: the frame of EI, DI and RETI. No register but PC and SP (RETI
only), no flag, no run mode, no bus field and no byte of memory changes; IME only by DI and RETI, the latch only by EI
and DI. -/
def Obligations.EiDiRetiFrame : Prop :=
  ∀ (i : Instr) (s t : State), i = .ei ∨ i = .di ∨ i = .reti → exec i s = .next t →
    t.regs = { s.regs with pc := t.pc, sp := t.sp } ∧ (i ≠ .reti → t.pc = s.pc ∧ t.sp = s.sp) ∧
    (i = .reti → t.sp = s.sp + 2) ∧
    (t.flagZ = s.flagZ ∧ t.flagN = s.flagN ∧ t.flagH = s.flagH ∧ t.flagC = s.flagC) ∧
    (i = .ei → t.ime = s.ime) ∧ (i = .reti → t.imePending = s.imePending) ∧ t.halt = s.halt ∧ t.stop = s.stop ∧
    t.intFlag = s.intFlag ∧ t.intEnable = s.intEnable ∧ t.speed = s.speed ∧ t.switchPending = s.switchPending ∧
    t.totalTicks = s.totalTicks ∧ t.budget = s.budget ∧ t.frameCount = s.frameCount ∧ t.buttons = s.buttons ∧
    t.directions = s.directions ∧ t.select = s.select ∧ t.fault = s.fault ∧ t.params = s.params ∧
    (∀ a, memRead t a = memRead s a)

/-! ## The executor -/

/-- 41_executor_contract.md: a delegated opcode completes in every state if the executor implements the operation, and
otherwise answers a next state or the fault of its opcode byte. A next state keeps every field the contract keeps from
the executor, and the fields of the scheduler, the host and the peripherals; F[3:0] stay 0, and every byte the executor
does not store to reads as before. `EXEC` as a tree is the model's reading (log 2), and the byte store is its choice
within R39 (log 4). -/
def Obligations.DelegatedOpcodeKeepsTheContract : Prop :=
  ∀ (op : Byte) (s : State),
    (faultless (delegatedTree op s) = true → ∃ t, exec (.delegated op) s = .next t) ∧
    ((∃ t, exec (.delegated op) s = .next t) ∨ exec (.delegated op) s = .fault (.undefinedOpcode op)) ∧
    ∀ t, exec (.delegated op) s = .next t →
      t.halt = s.halt ∧ t.stop = s.stop ∧ t.imePending = s.imePending ∧
      t.speed = s.speed ∧ t.totalTicks = s.totalTicks ∧ t.budget = s.budget ∧ t.frameCount = s.frameCount ∧
      t.buttons = s.buttons ∧ t.directions = s.directions ∧ t.fault = s.fault ∧ t.params = s.params ∧
      t.hostCalls = s.hostCalls ∧ t.framesResult = s.framesResult ∧ t.imageResult = s.imageResult ∧
      t.timerOwn = s.timerOwn ∧ t.displayOwn = s.displayOwn ∧
      (0xFF00 ∉ storedAddresses (delegatedTree op s) (entryByte op s) (enterExecutor op s) → t.select = s.select) ∧
      (0xFF4D ∉ storedAddresses (delegatedTree op s) (entryByte op s) (enterExecutor op s) →
        t.switchPending = s.switchPending) ∧
      (s.regs.f &&& 0x0F = 0 → t.regs.f &&& 0x0F = 0) ∧ (Memory.wf s.mem → Memory.wf t.mem) ∧
      (∀ a, a ∉ storedAddresses (delegatedTree op s) (entryByte op s) (enterExecutor op s) →
        memRead t a = memRead s a)

/-- 30_encoding.md R60: after the prefix 0xCB the executor fetches the next byte, and that byte selects what it does,
whatever the executor is; a byte it does not implement faults with the prefix as its opcode byte. -/
def Obligations.PrefixFetchesTheSecondByte : Prop :=
  ∀ s : State,
    (∀ tree, s.params.executor.cbOps.lookup (memRead s s.pc) = some tree →
      exec (.delegated 0xCB) s =
        runExecTree 0xCB tree (memRead s s.pc) { s with regs := { s.regs with pc := s.pc + 1 } }) ∧
    (s.params.executor.cbOps.lookup (memRead s s.pc) = none →
      exec (.delegated 0xCB) s = .fault (.undefinedOpcode 0xCB))

/-- 30_encoding.md R59, 41_executor_contract.md R77: each of the eleven bytes faults, and so does a delegated byte the
executor does not implement; a driver step that fetches one ends in that fault. -/
def Obligations.UndefinedBytesFault : Prop :=
  (∀ (i : Instr) (s : State), i.opcodeClass = .illegal → exec i s = .fault (.undefinedOpcode i.opcode)) ∧
  (∀ (op : Byte) (s : State), op ≠ 0xCB → s.params.executor.ops.lookup op = none →
    exec (.delegated op) s = .fault (.undefinedOpcode op)) ∧
  (∀ (op : Byte) (s : State), s.fault = none → Running s → memRead s s.pc = op →
    (op ∈ [0xD3, 0xDB, 0xDD, 0xE3, 0xE4, 0xEB, 0xEC, 0xED, 0xF4, 0xFC, 0xFD] ∨
      opcodeClass op = .delegated ∧ exec (.delegated op) { s with
        regs := { s.regs with pc := s.pc + 1 }, ime := s.ime || s.imePending, imePending := false } =
          .fault (.undefinedOpcode op)) →
    driverStep s = .fault (.undefinedOpcode op))

/-! ## The driver step -/

/-- 42_driver_step.md R83, R89, 43_frame_scheduler.md R93: in a frame, with the CPU Running, a step of the block
executes the instruction decoded at PC, with the latch resolved and PC past the opcode byte; a cost of 0 is a fault;
then come the controller, the scaling, the counter, the timer, the display and the budget. -/
def Obligations.StepRunsTheDecodedInstruction : Prop :=
  ∀ (s : State) (i : Instr) (rest : List Byte), s.fault = none → InFrame s → Running s →
    decode [memRead s s.pc, memRead s (s.pc + 1)] = .ok (i, rest) →
    step s =
      bindNext (exec i { s with
          regs := { s.regs with pc := s.pc + 1 }, ime := s.ime || s.imePending, imePending := false }) fun u =>
        if u.ticks = 0 then .fault (.zeroCostStep (memRead s s.pc))
        else bindNext (interruptController u) fun v =>
          .next (finishIfSpent (chargeBudget (displayStep (timerStep (countTicks (scaleTicks v))))))

/-- 42_driver_step.md R82: part 1 runs on every step, whatever the run mode: a step is the step from the state whose
latch has become IME. -/
def Obligations.LatchResolvesFirst : Prop :=
  ∀ s : State, driverStep s = driverStep { s with ime := s.ime || s.imePending, imePending := false }

/-- 42_driver_step.md R84: stopped, with a switch pending on `Color`, part 2 flips the mode, clears the pending switch
and `stop`, and charges one base cycle, which part 4 scales by the new mode; the CPU is Running after it. -/
def Obligations.SpeedSwitchStep : Prop :=
  ∀ s : State, s.halt = false → s.stop = true → s.switchPending = true → s.params.target = .color →
    partTwo s = .next { s with
      speed := (if s.speed = .normal then .double else .normal), switchPending := false, stop := false, ticks := 1 } ∧
    (s.fault = none → s.intFlag &&& s.intEnable = 0 →
      (s.speed = .normal → driverStep s = .next { s with
        speed := .double, switchPending := false, stop := false, ime := s.ime || s.imePending, imePending := false,
        ticks := 2, totalTicks := s.totalTicks + 2 }) ∧
      (s.speed = .double → driverStep s = .next { s with
        speed := .normal, switchPending := false, stop := false, ime := s.ime || s.imePending, imePending := false,
        ticks := 4, totalTicks := s.totalTicks + 4 }))

/-- 42_driver_step.md R85: halted, or stopped with no legal switch pending, part 2 charges one base cycle and does
nothing else: no byte is fetched and PC stays. -/
def Obligations.IdleStepOnlyCharges : Prop :=
  ∀ s : State, ¬Running s → ¬(s.stop = true ∧ s.switchPending = true ∧ s.params.target = .color) →
    partTwo s = .next { s with ticks := 1 } ∧
    (s.fault = none → s.intFlag &&& s.intEnable = 0 →
      driverStep s = .next { s with
        ime := s.ime || s.imePending, imePending := false, ticks := speedMultiplier s.speed,
        totalTicks := s.totalTicks + BitVec.ofNat 64 (speedMultiplier s.speed) })

/-- 42_driver_step.md R87 and 70_reset_and_hazards.md R140: the ticks of a step are its base cycles, plus one if the
controller took an interrupt, times 4 in Normal and 2 in Double mode, with the mode in force at the end. -/
def Obligations.TicksAreScaledBaseCycles : Prop :=
  ∀ s t u : State, driverStep s = .next t → partTwo (resolveLatch s) = .next u →
    (t.speed = .normal → t.ticks = u.ticks * 4 ∨ t.ticks = (u.ticks + 1) * 4) ∧
    (t.speed = .double → t.ticks = u.ticks * 2 ∨ t.ticks = (u.ticks + 1) * 2) ∧
    (t.ticks = (u.ticks + 1) * speedMultiplier t.speed ↔
      u.ime = true ∧ u.intFlag &&& u.intEnable ≠ 0)

/-- 42_driver_step.md R88: every driver step adds the ticks it returns to the counter, modulo 2^64. -/
def Obligations.TotalTicksAccumulate : Prop :=
  ∀ s t : State, driverStep s = .next t → t.totalTicks.toNat = (s.totalTicks.toNat + t.ticks) % 2 ^ 64

/-- 42_driver_step.md section 2, an inference the spec marks as its own (R92): a step returns at least 2 ticks and at
most `(C + 1) × 4`, where the instruction it runs costs no more than C; a halted or stopped step with no dispatch
returns exactly the multiplier. -/
def Obligations.StepTicksAreBounded : Prop :=
  ∀ s t : State, driverStep s = .next t →
    2 ≤ t.ticks ∧
    (∀ C, 1 ≤ C → (∀ u, exec (decodeOpcode (memRead s s.pc)) { s with
        regs := { s.regs with pc := s.pc + 1 }, ime := s.ime || s.imePending, imePending := false } = .next u →
        u.ticks ≤ C) → t.ticks ≤ (C + 1) * 4) ∧
    (¬Running s → t.regs = s.regs → t.ticks = speedMultiplier t.speed)

/-- 42_driver_step.md R83: an executor that returns cost 0 ends the step in `ZeroCostStep` of the fetched byte. -/
def Obligations.ZeroCostIsAFault : Prop :=
  ∀ s u : State, s.fault = none → Running s →
    exec (decodeOpcode (memRead s s.pc)) { s with
      regs := { s.regs with pc := s.pc + 1 }, ime := s.ime || s.imePending, imePending := false } = .next u →
    u.ticks = 0 → driverStep s = .fault (.zeroCostStep (memRead s s.pc))

/-! ## Interrupts -/

/-- 60_exceptions.md R104: the controller runs in every driver step, after part 2; it acts only with IME = 1 or a
halted CPU, and only on a pending enabled bit; so a stopped CPU with IME = 0 is not woken. -/
def Obligations.ControllerNeedsImeOrHalt : Prop :=
  (∀ s t : State, driverStep s = .next t →
    ∃ u v, partTwo (resolveLatch s) = .next u ∧ interruptController u = .next v ∧ t = countTicks (scaleTicks v)) ∧
  ∀ s : State, (s.ime = false → s.halt = false → interruptController s = .next s) ∧
    (s.intFlag &&& s.intEnable = 0 → interruptController s = .next s)

/-- 60_exceptions.md R106, R108: with IME = 1 the lowest pending enabled source is taken: halt and stop cleared, its IF
bit cleared, IME cleared, PC pushed, PC at its vector, one base cycle charged, in that order; the latch, F and every
other register stay. -/
def Obligations.DispatchTakesTheLowestSource : Prop :=
  ∀ (s p : State) (src : InterruptSource), s.ime = true →
    (s.intFlag &&& s.intEnable).getLsbD (interruptBit src) = true →
    (∀ j < interruptBit src, (s.intFlag &&& s.intEnable).getLsbD j = false) →
    p = push16 s.pc { s with
      halt := false, stop := false, ime := false,
      intFlag := s.intFlag &&& ~~~(BitVec.ofNat 8 (2 ^ interruptBit src)) } →
    interruptController s = .next { p with
      regs := { s.regs with sp := s.sp - 2, pc := 0x0040 + 8 * BitVec.ofNat 16 (interruptBit src) },
      ticks := s.ticks + 1 }

/-- 60_exceptions.md section 2, 20_memory.md section 6: the frame of taking an interrupt. No register but SP and PC, no
flag, no counter and no other field changes; every IF bit but the source's own stays, unless the push falls on IF; and
every byte but the two pushed ones and IF reads as before. The byte store itself is the model's choice within R39
(log 4). -/
def Obligations.DispatchFrame : Prop :=
  ∀ (s t : State) (src : InterruptSource), t = dispatchInterrupt src s →
    t.regs = { s.regs with sp := t.sp, pc := t.pc } ∧
    (t.flagZ = s.flagZ ∧ t.flagN = s.flagN ∧ t.flagH = s.flagH ∧ t.flagC = s.flagC) ∧
    t.imePending = s.imePending ∧ t.speed = s.speed ∧ t.totalTicks = s.totalTicks ∧ t.budget = s.budget ∧
    t.frameCount = s.frameCount ∧ t.buttons = s.buttons ∧ t.directions = s.directions ∧ t.fault = s.fault ∧
    t.params = s.params ∧
    (s.sp - 1 ≠ 0xFF0F → s.sp - 2 ≠ 0xFF0F → t.intFlag.getLsbD (interruptBit src) = false ∧
      ∀ j, j ≠ interruptBit src → t.intFlag.getLsbD j = s.intFlag.getLsbD j) ∧
    (Memory.wf s.mem → busTarget (s.sp - 1) = .ext → memRead t (s.sp - 1) = s.pc.extractLsb' 8 8) ∧
    (Memory.wf s.mem → busTarget (s.sp - 2) = .ext → memRead t (s.sp - 2) = s.pc.extractLsb' 0 8) ∧
    (∀ a, a ≠ s.sp - 1 → a ≠ s.sp - 2 → a ≠ 0xFF0F → memRead t a = memRead s a)

/-- 60_exceptions.md section 1 (the rule on how an IF bit is cleared): a driver step that runs no delegated opcode, and
so no software store, clears an IF bit only by taking the interrupt of that source, unless the push of PC falls on
IF; a wake without service clears none. -/
def Obligations.IfBitsClearOnlyByDispatch : Prop :=
  ∀ s t : State, driverStep s = .next t →
    (Running s → opcodeClass (memRead s s.pc) ≠ .delegated) →
    ∀ i, s.intFlag.getLsbD i = true → t.intFlag.getLsbD i = false →
      lowestSet (s.intFlag &&& s.intEnable) = some i ∧ t.ime = false ∧ t.halt = false ∧ t.stop = false ∧
        (∃ src, i = interruptBit src ∧ t.pc = interruptVector src) ∨
      t.sp = 0xFF0F ∨ t.sp + 1 = 0xFF0F

/-- 30_encoding.md R61: the five vectors. -/
def Obligations.VectorTable : Prop :=
  (∀ src, interruptSourceAt (interruptBit src) = some src ∧
    interruptVector src = 0x0040 + 8 * BitVec.ofNat 16 (interruptBit src)) ∧
  interruptVector .vblank = 0x40 ∧ interruptVector .displayStatus = 0x48 ∧ interruptVector .timer = 0x50 ∧
  interruptVector .serial = 0x58 ∧ interruptVector .joypad = 0x60 ∧ (∀ i, 5 ≤ i → interruptSourceAt i = none)

/-- 60_exceptions.md R107: the controller faults exactly when it acts on a pending byte whose lowest set bit is 5, 6
or 7, that is when `pending[4:0] = 0` and `pending[7:5] ≠ 0`, whatever IME is. -/
def Obligations.BadInterruptIndexFaults : Prop :=
  ∀ s : State, s.ime = true ∨ s.halt = true →
    (∀ i, interruptController s = .fault (.badInterruptIndex i) ↔
      5 ≤ i ∧ i < 8 ∧ (s.intFlag &&& s.intEnable).getLsbD i = true ∧
        ∀ j < i, (s.intFlag &&& s.intEnable).getLsbD j = false) ∧
    ((∃ i, interruptController s = .fault (.badInterruptIndex i)) ↔
      (s.intFlag &&& s.intEnable).extractLsb' 0 5 = 0 ∧ (s.intFlag &&& s.intEnable).extractLsb' 5 3 ≠ 0)

/-- 60_exceptions.md R109: with IME = 0 and the CPU halted, a pending enabled source clears halt and stop and does
nothing else; the step charges no extra cycle. -/
def Obligations.WakeWithoutService : Prop :=
  ∀ (s : State) (src : InterruptSource), s.ime = false → s.halt = true →
    (s.intFlag &&& s.intEnable).getLsbD (interruptBit src) = true →
    (∀ j < interruptBit src, (s.intFlag &&& s.intEnable).getLsbD j = false) →
    interruptController s = .next { s with halt := false, stop := false } ∧
    (s.fault = none → s.stop = false → s.imePending = false →
      driverStep s = .next { s with
        halt := false, ticks := speedMultiplier s.speed,
        totalTicks := s.totalTicks + BitVec.ofNat 64 (speedMultiplier s.speed) })

/-- 70_reset_and_hazards.md R134: an interrupt pending when EI executes is not dispatched in the EI step; it is
dispatched after the next instruction, in the next step, if that instruction leaves IME set and the interrupt
pending. -/
def Obligations.EiDelaysByOneInstruction : Prop :=
  ∀ s : State, s.fault = none → Running s → s.ime = false → s.imePending = false → memRead s s.pc = 0xFB →
    s.params.coreCost.ei ≠ 0 →
    ∃ t, driverStep s = .next t ∧ t.regs = { s.regs with pc := s.pc + 1 } ∧ t.ime = false ∧ t.imePending = true ∧
      Running t ∧ t.intFlag = s.intFlag ∧ t.intEnable = s.intEnable ∧ (∀ a, memRead t a = memRead s a) ∧
      (∀ u src, exec (decodeOpcode (memRead t t.pc)) { t with
          regs := { t.regs with pc := t.pc + 1 }, ime := true, imePending := false } = .next u →
        u.ticks ≠ 0 → u.ime = true → lowestSet (u.intFlag &&& u.intEnable) = some (interruptBit src) →
        ∃ v, driverStep t = .next v ∧ v.pc = 0x0040 + 8 * BitVec.ofNat 16 (interruptBit src) ∧ v.ime = false)

/-! ## Reset -/

/-- 70_reset_and_hazards.md R127: the registers after reset are `INIT_REGS(TARGET)`, with F[3:0] 0 (10_state.md), and
the default of `INIT_REGS`, which the block at reset takes, is the table, by target. -/
def Obligations.ResetRegisters : Prop :=
  (∀ (p : Params) (contents : List Host.Cell),
    (State.resetFor p contents).regs = { p.initRegs with f := p.initRegs.f &&& 0xF0 } ∧
    (p.initRegs = defaultInitRegs p.target →
      (p.target = .mono → (State.resetFor p contents).regs =
        { a := 0x01, f := 0xB0, b := 0x00, c := 0x13, d := 0x00, e := 0xD8, h := 0x01, l := 0x4D,
          sp := 0xFFFE, pc := 0x0100 }) ∧
      (p.target = .color → (State.resetFor p contents).regs =
        { a := 0x11, f := 0x80, b := 0x00, c := 0x00, d := 0xFF, e := 0x56, h := 0x00, l := 0x0D,
          sp := 0xFFFE, pc := 0x0100 }))) ∧
  State.reset.params.initRegs = defaultInitRegs State.reset.params.target

/-- 70_reset_and_hazards.md R129, R130, R131, and the fields of R128: the control fields, the mediator, the counters and
the joypad after reset, for every construction; IF, IE and the column are their parameters, and the defaults of
`IF_RESET` and `IE_RESET` are 0x00. -/
def Obligations.ResetControlFields : Prop :=
  (∀ (p : Params) (contents : List Host.Cell) (s : State), s = State.resetFor p contents →
    s.halt = false ∧ s.stop = false ∧ s.ime = false ∧ s.imePending = false ∧ s.fault = none ∧
    s.intFlag = p.ifReset ∧ s.intEnable = p.ieReset ∧ s.speed = .normal ∧ s.switchPending = false ∧
    s.totalTicks = 0 ∧ s.budget = 0 ∧ s.frameCount = 0 ∧ s.buttons = 0xF ∧ s.directions = 0xF ∧
    s.select = p.joypResetSelect ∧ s.params = p) ∧
  State.reset.params.ifReset = 0x00 ∧ State.reset.params.ieReset = 0x00

/-- 70_reset_and_hazards.md section 1, 20_memory.md section 1: after reset a platform address holds the byte the
contents give it, the cartridge image among them, and the byte store has its canonical form. The plain byte store
(log 4), the first listing of an address counting, and what an address with none reads as (log 5), are the model's
choice. -/
def Obligations.ResetMemory : Prop :=
  ∀ (p : Params) (contents : List Host.Cell), Memory.wf (State.resetFor p contents).mem ∧
    ∀ a : Word, busTarget a = .ext →
      memRead (State.resetFor p contents) a =
        ((contents.find? fun c => c.1 == a.toNat).map Prod.snd).getD unlistedByte

/-! ## Whole-machine rules -/

/-- The state after reset is sound (10_state.md R17, 40_cpu_state_machine.md R66, 70_reset_and_hazards.md R127). -/
def Obligations.ResetIsSound : Prop := Sound State.reset ∧ ∀ p contents, Sound (State.resetFor p contents)

/-- Every step of the block keeps the invariant: the byte store's canonical form, F[3:0] zero (10_state.md R17), and
never halt and stop together (40_cpu_state_machine.md R66). -/
def Obligations.StepKeepsSoundness : Prop :=
  ∀ s t : State, Sound s → step s = .next t → Sound t

/-- 40_cpu_state_machine.md, an inference the spec marks as its own (R66): in every state a run from reset reaches,
whatever the parameters, the placed bytes and the host's calls, halt and stop are not both set. -/
def Obligations.HaltAndStopNeverBothSet : Prop :=
  ∀ (p : Params) (contents : List Host.Cell) (calls : List HostCall) (k : Nat) (t : State),
    SafeRun k { State.resetFor p contents with hostCalls := calls } t → ¬(t.halt = true ∧ t.stop = true)

/-- 10_state.md R24, 00_scope.md R6: no run of the block changes the target or any other construction parameter. -/
def Obligations.RunsKeepTheParameters : Prop :=
  ∀ (k : Nat) (s t : State), SafeRun k s t → t.params = s.params

/-- 10_state.md R15, R18: a driver step that runs no delegated opcode leaves A, F, B, C, D, E, H and L, and the flags
with F; the controller never writes them. -/
def Obligations.OnlyTheExecutorWritesGeneralRegisters : Prop :=
  ∀ s t : State, driverStep s = .next t →
    (Running s → opcodeClass (memRead s s.pc) ≠ .delegated) →
    t.regs = { s.regs with sp := t.sp, pc := t.pc } ∧
    (t.flagZ = s.flagZ ∧ t.flagN = s.flagN ∧ t.flagH = s.flagH ∧ t.flagC = s.flagC)

/-- 60_exceptions.md R115: a step that faults leaves `core.fault` set to its reason; from then on neither `exec` nor
`frame()` has a step, and no run of the block that would step the core goes on. -/
def Obligations.FaultsAreSticky : Prop :=
  (∀ (s : State) (f : Fault), driverStep s = .fault f → (settle s (driverStep s)).fault = some f) ∧
  (∀ (u : State) (f : Fault), u.fault = some f →
    driverStep u = .fault f ∧
    (∀ n, 0 < (beginFrame u).budget → frame (n + 1) u = .fault f) ∧
    (InFrame u ∨ (∃ rest, u.hostCalls = .frame :: rest) →
      step u = .fault f ∧ ∀ k t, 0 < k → ¬SafeRun k u t))

/-- 70_reset_and_hazards.md R138: STOP with IME = 0 and no legal switch pending leaves the CPU stopped for ever: every
run goes on, PC and every register stay, and each step of a frame is an idle one. -/
def Obligations.StoppedForEver : Prop :=
  (∀ s : State, s.halt = false → s.ime = false → s.imePending = false →
    (s.params.target = .mono ∨ s.switchPending = false) → ∃ t, exec .stop s = .next t ∧ HungStopped t) ∧
  ∀ (k : Nat) (s : State), s.fault = none → HungStopped s →
    ∃ t, SafeRun k s t ∧ t.fault = none ∧ HungStopped t ∧ t.regs = s.regs ∧ t.speed = s.speed ∧
      (InFrame t → ∃ u, step t = .next u ∧ u.ticks = speedMultiplier t.speed ∧
        u.budget = t.budget - speedMultiplier t.speed)

/-! ## The frame scheduler -/

/-- 43_frame_scheduler.md R93: `frame()` adds `FRAME_TICKS` to the budget and loops while it is positive; each pass
runs one driver step, the timer and the display, and subtracts the step's ticks; the count grows by one when the loop
ends; a driver step that faults ends it with no count. `n` bounds the passes. -/
def Obligations.FrameFollowsItsBudget : Prop :=
  ∀ (n : Nat) (s : State),
    (s.budget + (s.params.frameTicks : Nat) ≤ 0 → frame n s = .next { s with
      budget := s.budget + (s.params.frameTicks : Nat), frameCount := s.frameCount + 1 }) ∧
    (0 < s.budget + (s.params.frameTicks : Nat) →
      frame n s = frameLoop n { s with budget := s.budget + (s.params.frameTicks : Nat) }) ∧
    (s.budget ≤ 0 → frameLoop n s = .next s) ∧
    (∀ u, 0 < s.budget → driverStep s = .next u →
      (0 < s.budget - u.ticks → frameLoop (n + 1) s = frameLoop n { displayStep (timerStep u) with
        budget := s.budget - u.ticks }) ∧
      (s.budget - u.ticks ≤ 0 → frameLoop (n + 1) s = .next { displayStep (timerStep u) with
        budget := s.budget - u.ticks, frameCount := s.frameCount + 1 })) ∧
    (∀ f, 0 < s.budget → driverStep s = .fault f → frameLoop (n + 1) s = .fault f)

/-- 43_frame_scheduler.md, 00_scope.md section 5: one step of the model is one pass of the frame loop while the budget
is positive, and otherwise the host's oldest call, `frame()` when there is none. That a positive budget is a frame in
progress (log 14), and the list of calls (log 10), are the model's choice. -/
def Obligations.StepIsAPassOrAHostCall : Prop :=
  ∀ s : State, s.fault = none →
    (∀ u, InFrame s → driverStep s = .next u →
      step s = .next { displayStep (timerStep u) with
        budget := s.budget - u.ticks,
        frameCount := if s.budget - u.ticks ≤ 0 then s.frameCount + 1 else s.frameCount }) ∧
    (∀ f, InFrame s → driverStep s = .fault f → step s = .fault f) ∧
    (∀ c rest, ¬InFrame s → s.hostCalls = c :: rest → step s = .next (performCall c { s with hostCalls := rest })) ∧
    (¬InFrame s → s.hostCalls = [] → step s = .next (performCall .frame s)) ∧
    performCall .image s = { s with imageResult := Config.displayImage s.displayOwn }

/-- 43_frame_scheduler.md, an inference the spec marks as its own (R94): over any number of passes, the ticks the driver
counts are the budget spent (modulo 2^64), so a frame runs `FRAME_TICKS` plus the leftover before it minus the one after
it; and a pass from a positive budget leaves more than minus its own ticks. R94 also gives one frame's ticks with the
two leftovers the other way round, against R93; the model follows R93 (log 19). -/
def Obligations.TicksRunAreBudgetSpent : Prop :=
  (∀ (n : Nat) (s t : State), frameLoop n s = .next t →
    t.totalTicks = s.totalTicks + BitVec.ofInt 64 (s.budget - t.budget)) ∧
  (∀ (n : Nat) (s t : State), frame n s = .next t →
    t.totalTicks = s.totalTicks + BitVec.ofInt 64 ((s.params.frameTicks : Nat) + s.budget - t.budget)) ∧
  (∀ s t : State, InFrame s → step s = .next t → 1 - (t.ticks : Int) ≤ t.budget)

/-- 43_frame_scheduler.md, an inference the spec marks as its own (R96): from a budget that is not positive, `frame()`
ends within `⌈FRAME_TICKS / 2⌉` driver steps with a budget that is not positive and one more frame counted, unless a
fault stops it. -/
def Obligations.FrameEndsOrFaults : Prop :=
  ∀ (n : Nat) (s : State), s.budget ≤ 0 → ((s.params.frameTicks : Nat) + 1) / 2 ≤ n →
    (∃ t, frame n s = .next t ∧ t.budget ≤ 0 ∧ t.frameCount = s.frameCount + 1) ∨ (∃ f, frame n s = .fault f)

/-- 43_frame_scheduler.md R97: `frames()` returns the count and sets it to 0; called twice in a row it returns 0 the
second time. What the last call returned is held in `framesResult`. -/
def Obligations.FramesDrainsTheCount : Prop :=
  ∀ s : State,
    performCall .frames s = { s with framesResult := s.frameCount, frameCount := 0 } ∧
    performCall .frames (performCall .frames s) = { s with framesResult := 0, frameCount := 0 }

/-- 43_frame_scheduler.md R98: `image()` returns the display's frame buffer, a byte slice that depends on the display's
own state alone, and changes nothing of the block; no instruction, no driver step and no other call writes what the
buffer depends on. What the last call returned is held in `imageResult` (log 11). -/
def Obligations.ImageHandsOutTheBuffer : Prop :=
  (∀ s : State, performCall .image s = { s with imageResult := Config.displayImage s.displayOwn }) ∧
  (∀ s t : State, driverStep s = .next t → t.displayOwn = s.displayOwn ∧ t.imageResult = s.imageResult) ∧
  (∀ (c : HostCall) (s : State), (performCall c s).displayOwn = s.displayOwn ∧
    (c ≠ .image → (performCall c s).imageResult = s.imageResult))

/-- 43_frame_scheduler.md, 60_exceptions.md section 1: the timer and the display may set IF bits 0, 1 and 2 and
change their own state; they clear no IF bit and write nothing else. Which bits they may set is read from R100
(log 8). -/
def Obligations.PeripheralsOnlyRaise : Prop :=
  ∀ s : State, ∃ (flag : Byte) (timer display : Nat),
    displayStep (timerStep s) = { s with intFlag := flag, timerOwn := timer, displayOwn := display } ∧
    (∀ i, s.intFlag.getLsbD i = true → flag.getLsbD i = true) ∧
    (∀ i, 3 ≤ i → flag.getLsbD i = s.intFlag.getLsbD i)

/-! ## The joypad and the host -/

/-- 60_exceptions.md R119, 10_state.md R32: `keydown` clears the button's bit, sets IF[4] and does nothing else, pressed
already or not; a halted CPU with the joypad enabled wakes at the next driver step. -/
def Obligations.KeydownClearsAndRaises : Prop :=
  ∀ (s : State) (key : Button),
    performCall (.keydown key) s = { s with
      intFlag := s.intFlag ||| 0x10,
      buttons := s.buttons &&&
        (match key with | .a => 0xE | .b => 0xD | .select => 0xB | .start => 0x7 | _ => 0xF),
      directions := s.directions &&&
        (match key with | .right => 0xE | .left => 0xD | .up => 0xB | .down => 0x7 | _ => 0xF) } ∧
    (s.fault = none → s.halt = true → s.intFlag &&& s.intEnable = 0 → s.intEnable.getLsbD 4 = true →
      ∃ t, driverStep (performCall (.keydown key) s) = .next t ∧ t.halt = false)

/-- 60_exceptions.md R120, 10_state.md R32: `keyup` sets the button's bit and does nothing else; IF stays. -/
def Obligations.KeyupRestores : Prop :=
  ∀ (s : State) (key : Button),
    performCall (.keyup key) s = { s with
      buttons := s.buttons ||| (match key with | .a => 0x1 | .b => 0x2 | .select => 0x4 | .start => 0x8 | _ => 0x0),
      directions := s.directions |||
        (match key with | .right => 0x1 | .left => 0x2 | .up => 0x4 | .down => 0x8 | _ => 0x0) }

/-- 43_frame_scheduler.md, an inference the spec marks as its own (R99): no host call, and so no key event, takes effect
inside a frame. -/
def Obligations.HostWaitsForTheFrame : Prop :=
  ∀ s t : State, InFrame s → step s = .next t →
    t.hostCalls = s.hostCalls ∧ t.buttons = s.buttons ∧ t.directions = s.directions ∧
    t.framesResult = s.framesResult ∧ t.imageResult = s.imageResult
end

