-- ==== Sys2Proof/Laws/Memory.lean ====
section
/-! SUPPORT. The byte store: a read after a write, and the canonical form every write keeps. -/

namespace Sys2Proof.Machine

/-- Addresses strictly rising. -/
abbrev Rising (m : Memory) : Prop := List.Pairwise (fun c d : Host.Cell => c.1 < d.1) m

/-- An address below every listed one is not listed. -/
theorem Memory.read_below {m : Memory} {a : Nat} (h : ∀ c ∈ m, a < c.1) : Memory.read m a = unlistedByte := by
  induction m with
  | nil => rfl
  | cons c m ih =>
    have hc := h c (by simp)
    rw [Memory.read, if_neg (by omega)]
    exact ih fun d hd => h d (by simp [hd])

/-- A write leaves every other address as it was. -/
theorem Memory.read_write_other {a b : Nat} (m : Memory) (v : Byte) (h : b ≠ a) :
    Memory.read (Memory.write m a v) b = Memory.read m b := by
  induction m with
  | nil =>
    simp only [Memory.write]
    split <;> simp [Memory.read, Ne.symm h]
  | cons c m ih =>
    obtain ⟨k, w⟩ := c
    simp only [Memory.write]
    split
    · split <;> simp [Memory.read, Ne.symm h]
    · split
      · rename_i he
        subst he
        split <;> simp [Memory.read, Ne.symm h]
      · simp only [Memory.read, ih]

/-- A byte reads back as written. -/
theorem Memory.read_write_same {m : Memory} (hm : Rising m) (a : Nat) (v : Byte) :
    Memory.read (Memory.write m a v) a = v := by
  induction m with
  | nil =>
    simp only [Memory.write]
    split <;> simp_all [Memory.read]
  | cons c m ih =>
    obtain ⟨k, w⟩ := c
    obtain ⟨hk, hm⟩ := List.pairwise_cons.1 hm
    simp only [Memory.write]
    split
    · rename_i hlt
      split
      · rename_i hv
        rw [hv]
        exact Memory.read_below (by
          intro d hd
          rcases List.mem_cons.1 hd with rfl | hd
          · exact hlt
          · exact Nat.lt_trans hlt (hk d hd))
      · simp [Memory.read]
    · split
      · rename_i he
        split
        · rename_i hv
          rw [hv]
          exact Memory.read_below fun d hd => he ▸ hk d hd
        · simp [Memory.read]
      · rename_i hne
        rw [Memory.read, if_neg (Ne.symm hne)]
        exact ih hm

/-- Every cell after a write is a cell from before, or the one written. -/
theorem Memory.mem_write {m : Memory} {a : Nat} {v : Byte} {c : Host.Cell} (h : c ∈ Memory.write m a v) :
    c ∈ m ∨ (c = (a, v) ∧ v ≠ unlistedByte) := by
  induction m with
  | nil =>
    simp only [Memory.write] at h
    split at h <;> simp_all
  | cons d m ih =>
    obtain ⟨k, w⟩ := d
    simp only [Memory.write] at h
    repeat' split at h
    all_goals simp_all
    all_goals tauto

theorem Memory.write_rising {m : Memory} (hm : Rising m) (a : Nat) (v : Byte) : Rising (Memory.write m a v) := by
  induction m with
  | nil =>
    simp only [Memory.write]
    split <;> simp
  | cons c m ih =>
    obtain ⟨k, w⟩ := c
    have hcons := hm
    obtain ⟨hk, hm⟩ := List.pairwise_cons.1 hm
    simp only [Memory.write]
    split
    · rename_i hlt
      split
      · exact hcons
      · refine List.pairwise_cons.2 ⟨?_, hcons⟩
        intro d hd
        rcases List.mem_cons.1 hd with rfl | hd
        · exact hlt
        · exact Nat.lt_trans hlt (hk d hd)
    · split
      · rename_i he
        split
        · exact hm
        · exact List.pairwise_cons.2 ⟨fun d hd => he ▸ hk d hd, hm⟩
      · refine List.pairwise_cons.2 ⟨?_, ih hm⟩
        intro d hd
        rcases Memory.mem_write hd with hd | ⟨rfl, -⟩
        · exact hk d hd
        · show k < a
          omega

/-- A write at a plain address keeps the canonical form. -/
theorem Memory.write_wf {m : Memory} (hm : Memory.wf m) {a : Nat} {v : Byte} (ha : a < 65536)
    (ht : busTarget (BitVec.ofNat 16 a) = .ext) : Memory.wf (Memory.write m a v) := by
  refine ⟨Memory.write_rising hm.1 a v, ?_⟩
  intro c hc
  rcases Memory.mem_write hc with hc | ⟨rfl, hv⟩
  · exact hm.2 c hc
  · exact ⟨ha, ht, hv⟩

/-- The empty store has the canonical form. -/
theorem Memory.wf_nil : Memory.wf [] := ⟨List.Pairwise.nil, by simp⟩

/-! ### The contents at reset -/

theorem Memory.place_wf {m : Memory} (hm : Memory.wf m) (c : Host.Cell) : Memory.wf (Memory.place m c) := by
  rw [Memory.place]
  split
  · rename_i h
    exact Memory.write_wf hm h.1 h.2
  · exact hm

/-- Whatever contents are listed, the store at reset has the canonical form. -/
theorem Memory.load_wf (cells : List Host.Cell) : Memory.wf (Memory.load cells) := by
  induction cells with
  | nil => exact Memory.wf_nil
  | cons c cs ih => exact Memory.place_wf ih c

/-- A platform address holds the first byte listed for it, and otherwise what an unlisted one reads as. -/
theorem Memory.read_load {a : Nat} (ha : a < 65536) (ht : busTarget (BitVec.ofNat 16 a) = .ext)
    (cells : List Host.Cell) :
    Memory.read (Memory.load cells) a = ((cells.find? fun c => c.1 == a).map Prod.snd).getD unlistedByte := by
  induction cells with
  | nil => rfl
  | cons c cs ih =>
    simp only [Memory.load, Memory.place]
    by_cases h : c.1 = a
    · subst h
      simp [ha, ht, Memory.read_write_same (Memory.load_wf cs).1]
    · rw [List.find?_cons_of_neg (by simpa using h), ← ih]
      split
      · exact Memory.read_write_other _ _ (Ne.symm h)
      · rfl

end Sys2Proof.Machine
end

