-- ==== Sys2Proof/Laws/State.lean ====
section
/-! SUPPORT. What each update of State leaves in each field, one lemma per field per update, so that no proof unfolds a
record update. -/

namespace Sys2Proof.Machine

variable (s : State)

@[simp] theorem State.pc_eq : s.pc = s.regs.pc := rfl
@[simp] theorem State.sp_eq : s.sp = s.regs.sp := rfl

/-! `setRegs` -/

@[simp] theorem State.setRegs_params (v : Regs) : (s.setRegs v).params = s.params := rfl
@[simp] theorem State.setRegs_regs (v : Regs) : (s.setRegs v).regs = v := rfl
@[simp] theorem State.setRegs_ime (v : Regs) : (s.setRegs v).ime = s.ime := rfl
@[simp] theorem State.setRegs_imePending (v : Regs) : (s.setRegs v).imePending = s.imePending := rfl
@[simp] theorem State.setRegs_halt (v : Regs) : (s.setRegs v).halt = s.halt := rfl
@[simp] theorem State.setRegs_stop (v : Regs) : (s.setRegs v).stop = s.stop := rfl
@[simp] theorem State.setRegs_intFlag (v : Regs) : (s.setRegs v).intFlag = s.intFlag := rfl
@[simp] theorem State.setRegs_intEnable (v : Regs) : (s.setRegs v).intEnable = s.intEnable := rfl
@[simp] theorem State.setRegs_speed (v : Regs) : (s.setRegs v).speed = s.speed := rfl
@[simp] theorem State.setRegs_switchPending (v : Regs) : (s.setRegs v).switchPending = s.switchPending := rfl
@[simp] theorem State.setRegs_totalTicks (v : Regs) : (s.setRegs v).totalTicks = s.totalTicks := rfl
@[simp] theorem State.setRegs_budget (v : Regs) : (s.setRegs v).budget = s.budget := rfl
@[simp] theorem State.setRegs_frameCount (v : Regs) : (s.setRegs v).frameCount = s.frameCount := rfl
@[simp] theorem State.setRegs_buttons (v : Regs) : (s.setRegs v).buttons = s.buttons := rfl
@[simp] theorem State.setRegs_directions (v : Regs) : (s.setRegs v).directions = s.directions := rfl
@[simp] theorem State.setRegs_select (v : Regs) : (s.setRegs v).select = s.select := rfl
@[simp] theorem State.setRegs_fault (v : Regs) : (s.setRegs v).fault = s.fault := rfl
@[simp] theorem State.setRegs_mem (v : Regs) : (s.setRegs v).mem = s.mem := rfl
@[simp] theorem State.setRegs_ticks (v : Regs) : (s.setRegs v).ticks = s.ticks := rfl
@[simp] theorem State.setRegs_hostCalls (v : Regs) : (s.setRegs v).hostCalls = s.hostCalls := rfl
@[simp] theorem State.setRegs_framesResult (v : Regs) : (s.setRegs v).framesResult = s.framesResult := rfl
@[simp] theorem State.setRegs_imageResult (v : Regs) : (s.setRegs v).imageResult = s.imageResult := rfl
@[simp] theorem State.setRegs_timerOwn (v : Regs) : (s.setRegs v).timerOwn = s.timerOwn := rfl
@[simp] theorem State.setRegs_displayOwn (v : Regs) : (s.setRegs v).displayOwn = s.displayOwn := rfl

/-! `setIme` -/

@[simp] theorem State.setIme_params (v : Bool) : (s.setIme v).params = s.params := rfl
@[simp] theorem State.setIme_regs (v : Bool) : (s.setIme v).regs = s.regs := rfl
@[simp] theorem State.setIme_ime (v : Bool) : (s.setIme v).ime = v := rfl
@[simp] theorem State.setIme_imePending (v : Bool) : (s.setIme v).imePending = s.imePending := rfl
@[simp] theorem State.setIme_halt (v : Bool) : (s.setIme v).halt = s.halt := rfl
@[simp] theorem State.setIme_stop (v : Bool) : (s.setIme v).stop = s.stop := rfl
@[simp] theorem State.setIme_intFlag (v : Bool) : (s.setIme v).intFlag = s.intFlag := rfl
@[simp] theorem State.setIme_intEnable (v : Bool) : (s.setIme v).intEnable = s.intEnable := rfl
@[simp] theorem State.setIme_speed (v : Bool) : (s.setIme v).speed = s.speed := rfl
@[simp] theorem State.setIme_switchPending (v : Bool) : (s.setIme v).switchPending = s.switchPending := rfl
@[simp] theorem State.setIme_totalTicks (v : Bool) : (s.setIme v).totalTicks = s.totalTicks := rfl
@[simp] theorem State.setIme_budget (v : Bool) : (s.setIme v).budget = s.budget := rfl
@[simp] theorem State.setIme_frameCount (v : Bool) : (s.setIme v).frameCount = s.frameCount := rfl
@[simp] theorem State.setIme_buttons (v : Bool) : (s.setIme v).buttons = s.buttons := rfl
@[simp] theorem State.setIme_directions (v : Bool) : (s.setIme v).directions = s.directions := rfl
@[simp] theorem State.setIme_select (v : Bool) : (s.setIme v).select = s.select := rfl
@[simp] theorem State.setIme_fault (v : Bool) : (s.setIme v).fault = s.fault := rfl
@[simp] theorem State.setIme_mem (v : Bool) : (s.setIme v).mem = s.mem := rfl
@[simp] theorem State.setIme_ticks (v : Bool) : (s.setIme v).ticks = s.ticks := rfl
@[simp] theorem State.setIme_hostCalls (v : Bool) : (s.setIme v).hostCalls = s.hostCalls := rfl
@[simp] theorem State.setIme_framesResult (v : Bool) : (s.setIme v).framesResult = s.framesResult := rfl
@[simp] theorem State.setIme_imageResult (v : Bool) : (s.setIme v).imageResult = s.imageResult := rfl
@[simp] theorem State.setIme_timerOwn (v : Bool) : (s.setIme v).timerOwn = s.timerOwn := rfl
@[simp] theorem State.setIme_displayOwn (v : Bool) : (s.setIme v).displayOwn = s.displayOwn := rfl

/-! `setImePending` -/

@[simp] theorem State.setImePending_params (v : Bool) : (s.setImePending v).params = s.params := rfl
@[simp] theorem State.setImePending_regs (v : Bool) : (s.setImePending v).regs = s.regs := rfl
@[simp] theorem State.setImePending_ime (v : Bool) : (s.setImePending v).ime = s.ime := rfl
@[simp] theorem State.setImePending_imePending (v : Bool) : (s.setImePending v).imePending = v := rfl
@[simp] theorem State.setImePending_halt (v : Bool) : (s.setImePending v).halt = s.halt := rfl
@[simp] theorem State.setImePending_stop (v : Bool) : (s.setImePending v).stop = s.stop := rfl
@[simp] theorem State.setImePending_intFlag (v : Bool) : (s.setImePending v).intFlag = s.intFlag := rfl
@[simp] theorem State.setImePending_intEnable (v : Bool) : (s.setImePending v).intEnable = s.intEnable := rfl
@[simp] theorem State.setImePending_speed (v : Bool) : (s.setImePending v).speed = s.speed := rfl
@[simp] theorem State.setImePending_switchPending (v : Bool) : (s.setImePending v).switchPending = s.switchPending := rfl
@[simp] theorem State.setImePending_totalTicks (v : Bool) : (s.setImePending v).totalTicks = s.totalTicks := rfl
@[simp] theorem State.setImePending_budget (v : Bool) : (s.setImePending v).budget = s.budget := rfl
@[simp] theorem State.setImePending_frameCount (v : Bool) : (s.setImePending v).frameCount = s.frameCount := rfl
@[simp] theorem State.setImePending_buttons (v : Bool) : (s.setImePending v).buttons = s.buttons := rfl
@[simp] theorem State.setImePending_directions (v : Bool) : (s.setImePending v).directions = s.directions := rfl
@[simp] theorem State.setImePending_select (v : Bool) : (s.setImePending v).select = s.select := rfl
@[simp] theorem State.setImePending_fault (v : Bool) : (s.setImePending v).fault = s.fault := rfl
@[simp] theorem State.setImePending_mem (v : Bool) : (s.setImePending v).mem = s.mem := rfl
@[simp] theorem State.setImePending_ticks (v : Bool) : (s.setImePending v).ticks = s.ticks := rfl
@[simp] theorem State.setImePending_hostCalls (v : Bool) : (s.setImePending v).hostCalls = s.hostCalls := rfl
@[simp] theorem State.setImePending_framesResult (v : Bool) : (s.setImePending v).framesResult = s.framesResult := rfl
@[simp] theorem State.setImePending_imageResult (v : Bool) : (s.setImePending v).imageResult = s.imageResult := rfl
@[simp] theorem State.setImePending_timerOwn (v : Bool) : (s.setImePending v).timerOwn = s.timerOwn := rfl
@[simp] theorem State.setImePending_displayOwn (v : Bool) : (s.setImePending v).displayOwn = s.displayOwn := rfl

/-! `setHalt` -/

@[simp] theorem State.setHalt_params (v : Bool) : (s.setHalt v).params = s.params := rfl
@[simp] theorem State.setHalt_regs (v : Bool) : (s.setHalt v).regs = s.regs := rfl
@[simp] theorem State.setHalt_ime (v : Bool) : (s.setHalt v).ime = s.ime := rfl
@[simp] theorem State.setHalt_imePending (v : Bool) : (s.setHalt v).imePending = s.imePending := rfl
@[simp] theorem State.setHalt_halt (v : Bool) : (s.setHalt v).halt = v := rfl
@[simp] theorem State.setHalt_stop (v : Bool) : (s.setHalt v).stop = s.stop := rfl
@[simp] theorem State.setHalt_intFlag (v : Bool) : (s.setHalt v).intFlag = s.intFlag := rfl
@[simp] theorem State.setHalt_intEnable (v : Bool) : (s.setHalt v).intEnable = s.intEnable := rfl
@[simp] theorem State.setHalt_speed (v : Bool) : (s.setHalt v).speed = s.speed := rfl
@[simp] theorem State.setHalt_switchPending (v : Bool) : (s.setHalt v).switchPending = s.switchPending := rfl
@[simp] theorem State.setHalt_totalTicks (v : Bool) : (s.setHalt v).totalTicks = s.totalTicks := rfl
@[simp] theorem State.setHalt_budget (v : Bool) : (s.setHalt v).budget = s.budget := rfl
@[simp] theorem State.setHalt_frameCount (v : Bool) : (s.setHalt v).frameCount = s.frameCount := rfl
@[simp] theorem State.setHalt_buttons (v : Bool) : (s.setHalt v).buttons = s.buttons := rfl
@[simp] theorem State.setHalt_directions (v : Bool) : (s.setHalt v).directions = s.directions := rfl
@[simp] theorem State.setHalt_select (v : Bool) : (s.setHalt v).select = s.select := rfl
@[simp] theorem State.setHalt_fault (v : Bool) : (s.setHalt v).fault = s.fault := rfl
@[simp] theorem State.setHalt_mem (v : Bool) : (s.setHalt v).mem = s.mem := rfl
@[simp] theorem State.setHalt_ticks (v : Bool) : (s.setHalt v).ticks = s.ticks := rfl
@[simp] theorem State.setHalt_hostCalls (v : Bool) : (s.setHalt v).hostCalls = s.hostCalls := rfl
@[simp] theorem State.setHalt_framesResult (v : Bool) : (s.setHalt v).framesResult = s.framesResult := rfl
@[simp] theorem State.setHalt_imageResult (v : Bool) : (s.setHalt v).imageResult = s.imageResult := rfl
@[simp] theorem State.setHalt_timerOwn (v : Bool) : (s.setHalt v).timerOwn = s.timerOwn := rfl
@[simp] theorem State.setHalt_displayOwn (v : Bool) : (s.setHalt v).displayOwn = s.displayOwn := rfl

/-! `setStop` -/

@[simp] theorem State.setStop_params (v : Bool) : (s.setStop v).params = s.params := rfl
@[simp] theorem State.setStop_regs (v : Bool) : (s.setStop v).regs = s.regs := rfl
@[simp] theorem State.setStop_ime (v : Bool) : (s.setStop v).ime = s.ime := rfl
@[simp] theorem State.setStop_imePending (v : Bool) : (s.setStop v).imePending = s.imePending := rfl
@[simp] theorem State.setStop_halt (v : Bool) : (s.setStop v).halt = s.halt := rfl
@[simp] theorem State.setStop_stop (v : Bool) : (s.setStop v).stop = v := rfl
@[simp] theorem State.setStop_intFlag (v : Bool) : (s.setStop v).intFlag = s.intFlag := rfl
@[simp] theorem State.setStop_intEnable (v : Bool) : (s.setStop v).intEnable = s.intEnable := rfl
@[simp] theorem State.setStop_speed (v : Bool) : (s.setStop v).speed = s.speed := rfl
@[simp] theorem State.setStop_switchPending (v : Bool) : (s.setStop v).switchPending = s.switchPending := rfl
@[simp] theorem State.setStop_totalTicks (v : Bool) : (s.setStop v).totalTicks = s.totalTicks := rfl
@[simp] theorem State.setStop_budget (v : Bool) : (s.setStop v).budget = s.budget := rfl
@[simp] theorem State.setStop_frameCount (v : Bool) : (s.setStop v).frameCount = s.frameCount := rfl
@[simp] theorem State.setStop_buttons (v : Bool) : (s.setStop v).buttons = s.buttons := rfl
@[simp] theorem State.setStop_directions (v : Bool) : (s.setStop v).directions = s.directions := rfl
@[simp] theorem State.setStop_select (v : Bool) : (s.setStop v).select = s.select := rfl
@[simp] theorem State.setStop_fault (v : Bool) : (s.setStop v).fault = s.fault := rfl
@[simp] theorem State.setStop_mem (v : Bool) : (s.setStop v).mem = s.mem := rfl
@[simp] theorem State.setStop_ticks (v : Bool) : (s.setStop v).ticks = s.ticks := rfl
@[simp] theorem State.setStop_hostCalls (v : Bool) : (s.setStop v).hostCalls = s.hostCalls := rfl
@[simp] theorem State.setStop_framesResult (v : Bool) : (s.setStop v).framesResult = s.framesResult := rfl
@[simp] theorem State.setStop_imageResult (v : Bool) : (s.setStop v).imageResult = s.imageResult := rfl
@[simp] theorem State.setStop_timerOwn (v : Bool) : (s.setStop v).timerOwn = s.timerOwn := rfl
@[simp] theorem State.setStop_displayOwn (v : Bool) : (s.setStop v).displayOwn = s.displayOwn := rfl

/-! `setIntFlag` -/

@[simp] theorem State.setIntFlag_params (v : Byte) : (s.setIntFlag v).params = s.params := rfl
@[simp] theorem State.setIntFlag_regs (v : Byte) : (s.setIntFlag v).regs = s.regs := rfl
@[simp] theorem State.setIntFlag_ime (v : Byte) : (s.setIntFlag v).ime = s.ime := rfl
@[simp] theorem State.setIntFlag_imePending (v : Byte) : (s.setIntFlag v).imePending = s.imePending := rfl
@[simp] theorem State.setIntFlag_halt (v : Byte) : (s.setIntFlag v).halt = s.halt := rfl
@[simp] theorem State.setIntFlag_stop (v : Byte) : (s.setIntFlag v).stop = s.stop := rfl
@[simp] theorem State.setIntFlag_intFlag (v : Byte) : (s.setIntFlag v).intFlag = v := rfl
@[simp] theorem State.setIntFlag_intEnable (v : Byte) : (s.setIntFlag v).intEnable = s.intEnable := rfl
@[simp] theorem State.setIntFlag_speed (v : Byte) : (s.setIntFlag v).speed = s.speed := rfl
@[simp] theorem State.setIntFlag_switchPending (v : Byte) : (s.setIntFlag v).switchPending = s.switchPending := rfl
@[simp] theorem State.setIntFlag_totalTicks (v : Byte) : (s.setIntFlag v).totalTicks = s.totalTicks := rfl
@[simp] theorem State.setIntFlag_budget (v : Byte) : (s.setIntFlag v).budget = s.budget := rfl
@[simp] theorem State.setIntFlag_frameCount (v : Byte) : (s.setIntFlag v).frameCount = s.frameCount := rfl
@[simp] theorem State.setIntFlag_buttons (v : Byte) : (s.setIntFlag v).buttons = s.buttons := rfl
@[simp] theorem State.setIntFlag_directions (v : Byte) : (s.setIntFlag v).directions = s.directions := rfl
@[simp] theorem State.setIntFlag_select (v : Byte) : (s.setIntFlag v).select = s.select := rfl
@[simp] theorem State.setIntFlag_fault (v : Byte) : (s.setIntFlag v).fault = s.fault := rfl
@[simp] theorem State.setIntFlag_mem (v : Byte) : (s.setIntFlag v).mem = s.mem := rfl
@[simp] theorem State.setIntFlag_ticks (v : Byte) : (s.setIntFlag v).ticks = s.ticks := rfl
@[simp] theorem State.setIntFlag_hostCalls (v : Byte) : (s.setIntFlag v).hostCalls = s.hostCalls := rfl
@[simp] theorem State.setIntFlag_framesResult (v : Byte) : (s.setIntFlag v).framesResult = s.framesResult := rfl
@[simp] theorem State.setIntFlag_imageResult (v : Byte) : (s.setIntFlag v).imageResult = s.imageResult := rfl
@[simp] theorem State.setIntFlag_timerOwn (v : Byte) : (s.setIntFlag v).timerOwn = s.timerOwn := rfl
@[simp] theorem State.setIntFlag_displayOwn (v : Byte) : (s.setIntFlag v).displayOwn = s.displayOwn := rfl

/-! `setIntEnable` -/

@[simp] theorem State.setIntEnable_params (v : Byte) : (s.setIntEnable v).params = s.params := rfl
@[simp] theorem State.setIntEnable_regs (v : Byte) : (s.setIntEnable v).regs = s.regs := rfl
@[simp] theorem State.setIntEnable_ime (v : Byte) : (s.setIntEnable v).ime = s.ime := rfl
@[simp] theorem State.setIntEnable_imePending (v : Byte) : (s.setIntEnable v).imePending = s.imePending := rfl
@[simp] theorem State.setIntEnable_halt (v : Byte) : (s.setIntEnable v).halt = s.halt := rfl
@[simp] theorem State.setIntEnable_stop (v : Byte) : (s.setIntEnable v).stop = s.stop := rfl
@[simp] theorem State.setIntEnable_intFlag (v : Byte) : (s.setIntEnable v).intFlag = s.intFlag := rfl
@[simp] theorem State.setIntEnable_intEnable (v : Byte) : (s.setIntEnable v).intEnable = v := rfl
@[simp] theorem State.setIntEnable_speed (v : Byte) : (s.setIntEnable v).speed = s.speed := rfl
@[simp] theorem State.setIntEnable_switchPending (v : Byte) : (s.setIntEnable v).switchPending = s.switchPending := rfl
@[simp] theorem State.setIntEnable_totalTicks (v : Byte) : (s.setIntEnable v).totalTicks = s.totalTicks := rfl
@[simp] theorem State.setIntEnable_budget (v : Byte) : (s.setIntEnable v).budget = s.budget := rfl
@[simp] theorem State.setIntEnable_frameCount (v : Byte) : (s.setIntEnable v).frameCount = s.frameCount := rfl
@[simp] theorem State.setIntEnable_buttons (v : Byte) : (s.setIntEnable v).buttons = s.buttons := rfl
@[simp] theorem State.setIntEnable_directions (v : Byte) : (s.setIntEnable v).directions = s.directions := rfl
@[simp] theorem State.setIntEnable_select (v : Byte) : (s.setIntEnable v).select = s.select := rfl
@[simp] theorem State.setIntEnable_fault (v : Byte) : (s.setIntEnable v).fault = s.fault := rfl
@[simp] theorem State.setIntEnable_mem (v : Byte) : (s.setIntEnable v).mem = s.mem := rfl
@[simp] theorem State.setIntEnable_ticks (v : Byte) : (s.setIntEnable v).ticks = s.ticks := rfl
@[simp] theorem State.setIntEnable_hostCalls (v : Byte) : (s.setIntEnable v).hostCalls = s.hostCalls := rfl
@[simp] theorem State.setIntEnable_framesResult (v : Byte) : (s.setIntEnable v).framesResult = s.framesResult := rfl
@[simp] theorem State.setIntEnable_imageResult (v : Byte) : (s.setIntEnable v).imageResult = s.imageResult := rfl
@[simp] theorem State.setIntEnable_timerOwn (v : Byte) : (s.setIntEnable v).timerOwn = s.timerOwn := rfl
@[simp] theorem State.setIntEnable_displayOwn (v : Byte) : (s.setIntEnable v).displayOwn = s.displayOwn := rfl

/-! `setSpeed` -/

@[simp] theorem State.setSpeed_params (v : Speed) : (s.setSpeed v).params = s.params := rfl
@[simp] theorem State.setSpeed_regs (v : Speed) : (s.setSpeed v).regs = s.regs := rfl
@[simp] theorem State.setSpeed_ime (v : Speed) : (s.setSpeed v).ime = s.ime := rfl
@[simp] theorem State.setSpeed_imePending (v : Speed) : (s.setSpeed v).imePending = s.imePending := rfl
@[simp] theorem State.setSpeed_halt (v : Speed) : (s.setSpeed v).halt = s.halt := rfl
@[simp] theorem State.setSpeed_stop (v : Speed) : (s.setSpeed v).stop = s.stop := rfl
@[simp] theorem State.setSpeed_intFlag (v : Speed) : (s.setSpeed v).intFlag = s.intFlag := rfl
@[simp] theorem State.setSpeed_intEnable (v : Speed) : (s.setSpeed v).intEnable = s.intEnable := rfl
@[simp] theorem State.setSpeed_speed (v : Speed) : (s.setSpeed v).speed = v := rfl
@[simp] theorem State.setSpeed_switchPending (v : Speed) : (s.setSpeed v).switchPending = s.switchPending := rfl
@[simp] theorem State.setSpeed_totalTicks (v : Speed) : (s.setSpeed v).totalTicks = s.totalTicks := rfl
@[simp] theorem State.setSpeed_budget (v : Speed) : (s.setSpeed v).budget = s.budget := rfl
@[simp] theorem State.setSpeed_frameCount (v : Speed) : (s.setSpeed v).frameCount = s.frameCount := rfl
@[simp] theorem State.setSpeed_buttons (v : Speed) : (s.setSpeed v).buttons = s.buttons := rfl
@[simp] theorem State.setSpeed_directions (v : Speed) : (s.setSpeed v).directions = s.directions := rfl
@[simp] theorem State.setSpeed_select (v : Speed) : (s.setSpeed v).select = s.select := rfl
@[simp] theorem State.setSpeed_fault (v : Speed) : (s.setSpeed v).fault = s.fault := rfl
@[simp] theorem State.setSpeed_mem (v : Speed) : (s.setSpeed v).mem = s.mem := rfl
@[simp] theorem State.setSpeed_ticks (v : Speed) : (s.setSpeed v).ticks = s.ticks := rfl
@[simp] theorem State.setSpeed_hostCalls (v : Speed) : (s.setSpeed v).hostCalls = s.hostCalls := rfl
@[simp] theorem State.setSpeed_framesResult (v : Speed) : (s.setSpeed v).framesResult = s.framesResult := rfl
@[simp] theorem State.setSpeed_imageResult (v : Speed) : (s.setSpeed v).imageResult = s.imageResult := rfl
@[simp] theorem State.setSpeed_timerOwn (v : Speed) : (s.setSpeed v).timerOwn = s.timerOwn := rfl
@[simp] theorem State.setSpeed_displayOwn (v : Speed) : (s.setSpeed v).displayOwn = s.displayOwn := rfl

/-! `setSwitchPending` -/

@[simp] theorem State.setSwitchPending_params (v : Bool) : (s.setSwitchPending v).params = s.params := rfl
@[simp] theorem State.setSwitchPending_regs (v : Bool) : (s.setSwitchPending v).regs = s.regs := rfl
@[simp] theorem State.setSwitchPending_ime (v : Bool) : (s.setSwitchPending v).ime = s.ime := rfl
@[simp] theorem State.setSwitchPending_imePending (v : Bool) : (s.setSwitchPending v).imePending = s.imePending := rfl
@[simp] theorem State.setSwitchPending_halt (v : Bool) : (s.setSwitchPending v).halt = s.halt := rfl
@[simp] theorem State.setSwitchPending_stop (v : Bool) : (s.setSwitchPending v).stop = s.stop := rfl
@[simp] theorem State.setSwitchPending_intFlag (v : Bool) : (s.setSwitchPending v).intFlag = s.intFlag := rfl
@[simp] theorem State.setSwitchPending_intEnable (v : Bool) : (s.setSwitchPending v).intEnable = s.intEnable := rfl
@[simp] theorem State.setSwitchPending_speed (v : Bool) : (s.setSwitchPending v).speed = s.speed := rfl
@[simp] theorem State.setSwitchPending_switchPending (v : Bool) : (s.setSwitchPending v).switchPending = v := rfl
@[simp] theorem State.setSwitchPending_totalTicks (v : Bool) : (s.setSwitchPending v).totalTicks = s.totalTicks := rfl
@[simp] theorem State.setSwitchPending_budget (v : Bool) : (s.setSwitchPending v).budget = s.budget := rfl
@[simp] theorem State.setSwitchPending_frameCount (v : Bool) : (s.setSwitchPending v).frameCount = s.frameCount := rfl
@[simp] theorem State.setSwitchPending_buttons (v : Bool) : (s.setSwitchPending v).buttons = s.buttons := rfl
@[simp] theorem State.setSwitchPending_directions (v : Bool) : (s.setSwitchPending v).directions = s.directions := rfl
@[simp] theorem State.setSwitchPending_select (v : Bool) : (s.setSwitchPending v).select = s.select := rfl
@[simp] theorem State.setSwitchPending_fault (v : Bool) : (s.setSwitchPending v).fault = s.fault := rfl
@[simp] theorem State.setSwitchPending_mem (v : Bool) : (s.setSwitchPending v).mem = s.mem := rfl
@[simp] theorem State.setSwitchPending_ticks (v : Bool) : (s.setSwitchPending v).ticks = s.ticks := rfl
@[simp] theorem State.setSwitchPending_hostCalls (v : Bool) : (s.setSwitchPending v).hostCalls = s.hostCalls := rfl
@[simp] theorem State.setSwitchPending_framesResult (v : Bool) : (s.setSwitchPending v).framesResult = s.framesResult := rfl
@[simp] theorem State.setSwitchPending_imageResult (v : Bool) : (s.setSwitchPending v).imageResult = s.imageResult := rfl
@[simp] theorem State.setSwitchPending_timerOwn (v : Bool) : (s.setSwitchPending v).timerOwn = s.timerOwn := rfl
@[simp] theorem State.setSwitchPending_displayOwn (v : Bool) : (s.setSwitchPending v).displayOwn = s.displayOwn := rfl

/-! `setTotalTicks` -/

@[simp] theorem State.setTotalTicks_params (v : Count) : (s.setTotalTicks v).params = s.params := rfl
@[simp] theorem State.setTotalTicks_regs (v : Count) : (s.setTotalTicks v).regs = s.regs := rfl
@[simp] theorem State.setTotalTicks_ime (v : Count) : (s.setTotalTicks v).ime = s.ime := rfl
@[simp] theorem State.setTotalTicks_imePending (v : Count) : (s.setTotalTicks v).imePending = s.imePending := rfl
@[simp] theorem State.setTotalTicks_halt (v : Count) : (s.setTotalTicks v).halt = s.halt := rfl
@[simp] theorem State.setTotalTicks_stop (v : Count) : (s.setTotalTicks v).stop = s.stop := rfl
@[simp] theorem State.setTotalTicks_intFlag (v : Count) : (s.setTotalTicks v).intFlag = s.intFlag := rfl
@[simp] theorem State.setTotalTicks_intEnable (v : Count) : (s.setTotalTicks v).intEnable = s.intEnable := rfl
@[simp] theorem State.setTotalTicks_speed (v : Count) : (s.setTotalTicks v).speed = s.speed := rfl
@[simp] theorem State.setTotalTicks_switchPending (v : Count) : (s.setTotalTicks v).switchPending = s.switchPending := rfl
@[simp] theorem State.setTotalTicks_totalTicks (v : Count) : (s.setTotalTicks v).totalTicks = v := rfl
@[simp] theorem State.setTotalTicks_budget (v : Count) : (s.setTotalTicks v).budget = s.budget := rfl
@[simp] theorem State.setTotalTicks_frameCount (v : Count) : (s.setTotalTicks v).frameCount = s.frameCount := rfl
@[simp] theorem State.setTotalTicks_buttons (v : Count) : (s.setTotalTicks v).buttons = s.buttons := rfl
@[simp] theorem State.setTotalTicks_directions (v : Count) : (s.setTotalTicks v).directions = s.directions := rfl
@[simp] theorem State.setTotalTicks_select (v : Count) : (s.setTotalTicks v).select = s.select := rfl
@[simp] theorem State.setTotalTicks_fault (v : Count) : (s.setTotalTicks v).fault = s.fault := rfl
@[simp] theorem State.setTotalTicks_mem (v : Count) : (s.setTotalTicks v).mem = s.mem := rfl
@[simp] theorem State.setTotalTicks_ticks (v : Count) : (s.setTotalTicks v).ticks = s.ticks := rfl
@[simp] theorem State.setTotalTicks_hostCalls (v : Count) : (s.setTotalTicks v).hostCalls = s.hostCalls := rfl
@[simp] theorem State.setTotalTicks_framesResult (v : Count) : (s.setTotalTicks v).framesResult = s.framesResult := rfl
@[simp] theorem State.setTotalTicks_imageResult (v : Count) : (s.setTotalTicks v).imageResult = s.imageResult := rfl
@[simp] theorem State.setTotalTicks_timerOwn (v : Count) : (s.setTotalTicks v).timerOwn = s.timerOwn := rfl
@[simp] theorem State.setTotalTicks_displayOwn (v : Count) : (s.setTotalTicks v).displayOwn = s.displayOwn := rfl

/-! `setBudget` -/

@[simp] theorem State.setBudget_params (v : Int) : (s.setBudget v).params = s.params := rfl
@[simp] theorem State.setBudget_regs (v : Int) : (s.setBudget v).regs = s.regs := rfl
@[simp] theorem State.setBudget_ime (v : Int) : (s.setBudget v).ime = s.ime := rfl
@[simp] theorem State.setBudget_imePending (v : Int) : (s.setBudget v).imePending = s.imePending := rfl
@[simp] theorem State.setBudget_halt (v : Int) : (s.setBudget v).halt = s.halt := rfl
@[simp] theorem State.setBudget_stop (v : Int) : (s.setBudget v).stop = s.stop := rfl
@[simp] theorem State.setBudget_intFlag (v : Int) : (s.setBudget v).intFlag = s.intFlag := rfl
@[simp] theorem State.setBudget_intEnable (v : Int) : (s.setBudget v).intEnable = s.intEnable := rfl
@[simp] theorem State.setBudget_speed (v : Int) : (s.setBudget v).speed = s.speed := rfl
@[simp] theorem State.setBudget_switchPending (v : Int) : (s.setBudget v).switchPending = s.switchPending := rfl
@[simp] theorem State.setBudget_totalTicks (v : Int) : (s.setBudget v).totalTicks = s.totalTicks := rfl
@[simp] theorem State.setBudget_budget (v : Int) : (s.setBudget v).budget = v := rfl
@[simp] theorem State.setBudget_frameCount (v : Int) : (s.setBudget v).frameCount = s.frameCount := rfl
@[simp] theorem State.setBudget_buttons (v : Int) : (s.setBudget v).buttons = s.buttons := rfl
@[simp] theorem State.setBudget_directions (v : Int) : (s.setBudget v).directions = s.directions := rfl
@[simp] theorem State.setBudget_select (v : Int) : (s.setBudget v).select = s.select := rfl
@[simp] theorem State.setBudget_fault (v : Int) : (s.setBudget v).fault = s.fault := rfl
@[simp] theorem State.setBudget_mem (v : Int) : (s.setBudget v).mem = s.mem := rfl
@[simp] theorem State.setBudget_ticks (v : Int) : (s.setBudget v).ticks = s.ticks := rfl
@[simp] theorem State.setBudget_hostCalls (v : Int) : (s.setBudget v).hostCalls = s.hostCalls := rfl
@[simp] theorem State.setBudget_framesResult (v : Int) : (s.setBudget v).framesResult = s.framesResult := rfl
@[simp] theorem State.setBudget_imageResult (v : Int) : (s.setBudget v).imageResult = s.imageResult := rfl
@[simp] theorem State.setBudget_timerOwn (v : Int) : (s.setBudget v).timerOwn = s.timerOwn := rfl
@[simp] theorem State.setBudget_displayOwn (v : Int) : (s.setBudget v).displayOwn = s.displayOwn := rfl

/-! `setFrameCount` -/

@[simp] theorem State.setFrameCount_params (v : Count) : (s.setFrameCount v).params = s.params := rfl
@[simp] theorem State.setFrameCount_regs (v : Count) : (s.setFrameCount v).regs = s.regs := rfl
@[simp] theorem State.setFrameCount_ime (v : Count) : (s.setFrameCount v).ime = s.ime := rfl
@[simp] theorem State.setFrameCount_imePending (v : Count) : (s.setFrameCount v).imePending = s.imePending := rfl
@[simp] theorem State.setFrameCount_halt (v : Count) : (s.setFrameCount v).halt = s.halt := rfl
@[simp] theorem State.setFrameCount_stop (v : Count) : (s.setFrameCount v).stop = s.stop := rfl
@[simp] theorem State.setFrameCount_intFlag (v : Count) : (s.setFrameCount v).intFlag = s.intFlag := rfl
@[simp] theorem State.setFrameCount_intEnable (v : Count) : (s.setFrameCount v).intEnable = s.intEnable := rfl
@[simp] theorem State.setFrameCount_speed (v : Count) : (s.setFrameCount v).speed = s.speed := rfl
@[simp] theorem State.setFrameCount_switchPending (v : Count) : (s.setFrameCount v).switchPending = s.switchPending := rfl
@[simp] theorem State.setFrameCount_totalTicks (v : Count) : (s.setFrameCount v).totalTicks = s.totalTicks := rfl
@[simp] theorem State.setFrameCount_budget (v : Count) : (s.setFrameCount v).budget = s.budget := rfl
@[simp] theorem State.setFrameCount_frameCount (v : Count) : (s.setFrameCount v).frameCount = v := rfl
@[simp] theorem State.setFrameCount_buttons (v : Count) : (s.setFrameCount v).buttons = s.buttons := rfl
@[simp] theorem State.setFrameCount_directions (v : Count) : (s.setFrameCount v).directions = s.directions := rfl
@[simp] theorem State.setFrameCount_select (v : Count) : (s.setFrameCount v).select = s.select := rfl
@[simp] theorem State.setFrameCount_fault (v : Count) : (s.setFrameCount v).fault = s.fault := rfl
@[simp] theorem State.setFrameCount_mem (v : Count) : (s.setFrameCount v).mem = s.mem := rfl
@[simp] theorem State.setFrameCount_ticks (v : Count) : (s.setFrameCount v).ticks = s.ticks := rfl
@[simp] theorem State.setFrameCount_hostCalls (v : Count) : (s.setFrameCount v).hostCalls = s.hostCalls := rfl
@[simp] theorem State.setFrameCount_framesResult (v : Count) : (s.setFrameCount v).framesResult = s.framesResult := rfl
@[simp] theorem State.setFrameCount_imageResult (v : Count) : (s.setFrameCount v).imageResult = s.imageResult := rfl
@[simp] theorem State.setFrameCount_timerOwn (v : Count) : (s.setFrameCount v).timerOwn = s.timerOwn := rfl
@[simp] theorem State.setFrameCount_displayOwn (v : Count) : (s.setFrameCount v).displayOwn = s.displayOwn := rfl

/-! `setButtons` -/

@[simp] theorem State.setButtons_params (v : Nibble) : (s.setButtons v).params = s.params := rfl
@[simp] theorem State.setButtons_regs (v : Nibble) : (s.setButtons v).regs = s.regs := rfl
@[simp] theorem State.setButtons_ime (v : Nibble) : (s.setButtons v).ime = s.ime := rfl
@[simp] theorem State.setButtons_imePending (v : Nibble) : (s.setButtons v).imePending = s.imePending := rfl
@[simp] theorem State.setButtons_halt (v : Nibble) : (s.setButtons v).halt = s.halt := rfl
@[simp] theorem State.setButtons_stop (v : Nibble) : (s.setButtons v).stop = s.stop := rfl
@[simp] theorem State.setButtons_intFlag (v : Nibble) : (s.setButtons v).intFlag = s.intFlag := rfl
@[simp] theorem State.setButtons_intEnable (v : Nibble) : (s.setButtons v).intEnable = s.intEnable := rfl
@[simp] theorem State.setButtons_speed (v : Nibble) : (s.setButtons v).speed = s.speed := rfl
@[simp] theorem State.setButtons_switchPending (v : Nibble) : (s.setButtons v).switchPending = s.switchPending := rfl
@[simp] theorem State.setButtons_totalTicks (v : Nibble) : (s.setButtons v).totalTicks = s.totalTicks := rfl
@[simp] theorem State.setButtons_budget (v : Nibble) : (s.setButtons v).budget = s.budget := rfl
@[simp] theorem State.setButtons_frameCount (v : Nibble) : (s.setButtons v).frameCount = s.frameCount := rfl
@[simp] theorem State.setButtons_buttons (v : Nibble) : (s.setButtons v).buttons = v := rfl
@[simp] theorem State.setButtons_directions (v : Nibble) : (s.setButtons v).directions = s.directions := rfl
@[simp] theorem State.setButtons_select (v : Nibble) : (s.setButtons v).select = s.select := rfl
@[simp] theorem State.setButtons_fault (v : Nibble) : (s.setButtons v).fault = s.fault := rfl
@[simp] theorem State.setButtons_mem (v : Nibble) : (s.setButtons v).mem = s.mem := rfl
@[simp] theorem State.setButtons_ticks (v : Nibble) : (s.setButtons v).ticks = s.ticks := rfl
@[simp] theorem State.setButtons_hostCalls (v : Nibble) : (s.setButtons v).hostCalls = s.hostCalls := rfl
@[simp] theorem State.setButtons_framesResult (v : Nibble) : (s.setButtons v).framesResult = s.framesResult := rfl
@[simp] theorem State.setButtons_imageResult (v : Nibble) : (s.setButtons v).imageResult = s.imageResult := rfl
@[simp] theorem State.setButtons_timerOwn (v : Nibble) : (s.setButtons v).timerOwn = s.timerOwn := rfl
@[simp] theorem State.setButtons_displayOwn (v : Nibble) : (s.setButtons v).displayOwn = s.displayOwn := rfl

/-! `setDirections` -/

@[simp] theorem State.setDirections_params (v : Nibble) : (s.setDirections v).params = s.params := rfl
@[simp] theorem State.setDirections_regs (v : Nibble) : (s.setDirections v).regs = s.regs := rfl
@[simp] theorem State.setDirections_ime (v : Nibble) : (s.setDirections v).ime = s.ime := rfl
@[simp] theorem State.setDirections_imePending (v : Nibble) : (s.setDirections v).imePending = s.imePending := rfl
@[simp] theorem State.setDirections_halt (v : Nibble) : (s.setDirections v).halt = s.halt := rfl
@[simp] theorem State.setDirections_stop (v : Nibble) : (s.setDirections v).stop = s.stop := rfl
@[simp] theorem State.setDirections_intFlag (v : Nibble) : (s.setDirections v).intFlag = s.intFlag := rfl
@[simp] theorem State.setDirections_intEnable (v : Nibble) : (s.setDirections v).intEnable = s.intEnable := rfl
@[simp] theorem State.setDirections_speed (v : Nibble) : (s.setDirections v).speed = s.speed := rfl
@[simp] theorem State.setDirections_switchPending (v : Nibble) : (s.setDirections v).switchPending = s.switchPending := rfl
@[simp] theorem State.setDirections_totalTicks (v : Nibble) : (s.setDirections v).totalTicks = s.totalTicks := rfl
@[simp] theorem State.setDirections_budget (v : Nibble) : (s.setDirections v).budget = s.budget := rfl
@[simp] theorem State.setDirections_frameCount (v : Nibble) : (s.setDirections v).frameCount = s.frameCount := rfl
@[simp] theorem State.setDirections_buttons (v : Nibble) : (s.setDirections v).buttons = s.buttons := rfl
@[simp] theorem State.setDirections_directions (v : Nibble) : (s.setDirections v).directions = v := rfl
@[simp] theorem State.setDirections_select (v : Nibble) : (s.setDirections v).select = s.select := rfl
@[simp] theorem State.setDirections_fault (v : Nibble) : (s.setDirections v).fault = s.fault := rfl
@[simp] theorem State.setDirections_mem (v : Nibble) : (s.setDirections v).mem = s.mem := rfl
@[simp] theorem State.setDirections_ticks (v : Nibble) : (s.setDirections v).ticks = s.ticks := rfl
@[simp] theorem State.setDirections_hostCalls (v : Nibble) : (s.setDirections v).hostCalls = s.hostCalls := rfl
@[simp] theorem State.setDirections_framesResult (v : Nibble) : (s.setDirections v).framesResult = s.framesResult := rfl
@[simp] theorem State.setDirections_imageResult (v : Nibble) : (s.setDirections v).imageResult = s.imageResult := rfl
@[simp] theorem State.setDirections_timerOwn (v : Nibble) : (s.setDirections v).timerOwn = s.timerOwn := rfl
@[simp] theorem State.setDirections_displayOwn (v : Nibble) : (s.setDirections v).displayOwn = s.displayOwn := rfl

/-! `setSelect` -/

@[simp] theorem State.setSelect_params (v : JoypSelect) : (s.setSelect v).params = s.params := rfl
@[simp] theorem State.setSelect_regs (v : JoypSelect) : (s.setSelect v).regs = s.regs := rfl
@[simp] theorem State.setSelect_ime (v : JoypSelect) : (s.setSelect v).ime = s.ime := rfl
@[simp] theorem State.setSelect_imePending (v : JoypSelect) : (s.setSelect v).imePending = s.imePending := rfl
@[simp] theorem State.setSelect_halt (v : JoypSelect) : (s.setSelect v).halt = s.halt := rfl
@[simp] theorem State.setSelect_stop (v : JoypSelect) : (s.setSelect v).stop = s.stop := rfl
@[simp] theorem State.setSelect_intFlag (v : JoypSelect) : (s.setSelect v).intFlag = s.intFlag := rfl
@[simp] theorem State.setSelect_intEnable (v : JoypSelect) : (s.setSelect v).intEnable = s.intEnable := rfl
@[simp] theorem State.setSelect_speed (v : JoypSelect) : (s.setSelect v).speed = s.speed := rfl
@[simp] theorem State.setSelect_switchPending (v : JoypSelect) : (s.setSelect v).switchPending = s.switchPending := rfl
@[simp] theorem State.setSelect_totalTicks (v : JoypSelect) : (s.setSelect v).totalTicks = s.totalTicks := rfl
@[simp] theorem State.setSelect_budget (v : JoypSelect) : (s.setSelect v).budget = s.budget := rfl
@[simp] theorem State.setSelect_frameCount (v : JoypSelect) : (s.setSelect v).frameCount = s.frameCount := rfl
@[simp] theorem State.setSelect_buttons (v : JoypSelect) : (s.setSelect v).buttons = s.buttons := rfl
@[simp] theorem State.setSelect_directions (v : JoypSelect) : (s.setSelect v).directions = s.directions := rfl
@[simp] theorem State.setSelect_select (v : JoypSelect) : (s.setSelect v).select = v := rfl
@[simp] theorem State.setSelect_fault (v : JoypSelect) : (s.setSelect v).fault = s.fault := rfl
@[simp] theorem State.setSelect_mem (v : JoypSelect) : (s.setSelect v).mem = s.mem := rfl
@[simp] theorem State.setSelect_ticks (v : JoypSelect) : (s.setSelect v).ticks = s.ticks := rfl
@[simp] theorem State.setSelect_hostCalls (v : JoypSelect) : (s.setSelect v).hostCalls = s.hostCalls := rfl
@[simp] theorem State.setSelect_framesResult (v : JoypSelect) : (s.setSelect v).framesResult = s.framesResult := rfl
@[simp] theorem State.setSelect_imageResult (v : JoypSelect) : (s.setSelect v).imageResult = s.imageResult := rfl
@[simp] theorem State.setSelect_timerOwn (v : JoypSelect) : (s.setSelect v).timerOwn = s.timerOwn := rfl
@[simp] theorem State.setSelect_displayOwn (v : JoypSelect) : (s.setSelect v).displayOwn = s.displayOwn := rfl

/-! `setFault` -/

@[simp] theorem State.setFault_params (v : Option Fault) : (s.setFault v).params = s.params := rfl
@[simp] theorem State.setFault_regs (v : Option Fault) : (s.setFault v).regs = s.regs := rfl
@[simp] theorem State.setFault_ime (v : Option Fault) : (s.setFault v).ime = s.ime := rfl
@[simp] theorem State.setFault_imePending (v : Option Fault) : (s.setFault v).imePending = s.imePending := rfl
@[simp] theorem State.setFault_halt (v : Option Fault) : (s.setFault v).halt = s.halt := rfl
@[simp] theorem State.setFault_stop (v : Option Fault) : (s.setFault v).stop = s.stop := rfl
@[simp] theorem State.setFault_intFlag (v : Option Fault) : (s.setFault v).intFlag = s.intFlag := rfl
@[simp] theorem State.setFault_intEnable (v : Option Fault) : (s.setFault v).intEnable = s.intEnable := rfl
@[simp] theorem State.setFault_speed (v : Option Fault) : (s.setFault v).speed = s.speed := rfl
@[simp] theorem State.setFault_switchPending (v : Option Fault) : (s.setFault v).switchPending = s.switchPending := rfl
@[simp] theorem State.setFault_totalTicks (v : Option Fault) : (s.setFault v).totalTicks = s.totalTicks := rfl
@[simp] theorem State.setFault_budget (v : Option Fault) : (s.setFault v).budget = s.budget := rfl
@[simp] theorem State.setFault_frameCount (v : Option Fault) : (s.setFault v).frameCount = s.frameCount := rfl
@[simp] theorem State.setFault_buttons (v : Option Fault) : (s.setFault v).buttons = s.buttons := rfl
@[simp] theorem State.setFault_directions (v : Option Fault) : (s.setFault v).directions = s.directions := rfl
@[simp] theorem State.setFault_select (v : Option Fault) : (s.setFault v).select = s.select := rfl
@[simp] theorem State.setFault_fault (v : Option Fault) : (s.setFault v).fault = v := rfl
@[simp] theorem State.setFault_mem (v : Option Fault) : (s.setFault v).mem = s.mem := rfl
@[simp] theorem State.setFault_ticks (v : Option Fault) : (s.setFault v).ticks = s.ticks := rfl
@[simp] theorem State.setFault_hostCalls (v : Option Fault) : (s.setFault v).hostCalls = s.hostCalls := rfl
@[simp] theorem State.setFault_framesResult (v : Option Fault) : (s.setFault v).framesResult = s.framesResult := rfl
@[simp] theorem State.setFault_imageResult (v : Option Fault) : (s.setFault v).imageResult = s.imageResult := rfl
@[simp] theorem State.setFault_timerOwn (v : Option Fault) : (s.setFault v).timerOwn = s.timerOwn := rfl
@[simp] theorem State.setFault_displayOwn (v : Option Fault) : (s.setFault v).displayOwn = s.displayOwn := rfl

/-! `setMem` -/

@[simp] theorem State.setMem_params (v : Memory) : (s.setMem v).params = s.params := rfl
@[simp] theorem State.setMem_regs (v : Memory) : (s.setMem v).regs = s.regs := rfl
@[simp] theorem State.setMem_ime (v : Memory) : (s.setMem v).ime = s.ime := rfl
@[simp] theorem State.setMem_imePending (v : Memory) : (s.setMem v).imePending = s.imePending := rfl
@[simp] theorem State.setMem_halt (v : Memory) : (s.setMem v).halt = s.halt := rfl
@[simp] theorem State.setMem_stop (v : Memory) : (s.setMem v).stop = s.stop := rfl
@[simp] theorem State.setMem_intFlag (v : Memory) : (s.setMem v).intFlag = s.intFlag := rfl
@[simp] theorem State.setMem_intEnable (v : Memory) : (s.setMem v).intEnable = s.intEnable := rfl
@[simp] theorem State.setMem_speed (v : Memory) : (s.setMem v).speed = s.speed := rfl
@[simp] theorem State.setMem_switchPending (v : Memory) : (s.setMem v).switchPending = s.switchPending := rfl
@[simp] theorem State.setMem_totalTicks (v : Memory) : (s.setMem v).totalTicks = s.totalTicks := rfl
@[simp] theorem State.setMem_budget (v : Memory) : (s.setMem v).budget = s.budget := rfl
@[simp] theorem State.setMem_frameCount (v : Memory) : (s.setMem v).frameCount = s.frameCount := rfl
@[simp] theorem State.setMem_buttons (v : Memory) : (s.setMem v).buttons = s.buttons := rfl
@[simp] theorem State.setMem_directions (v : Memory) : (s.setMem v).directions = s.directions := rfl
@[simp] theorem State.setMem_select (v : Memory) : (s.setMem v).select = s.select := rfl
@[simp] theorem State.setMem_fault (v : Memory) : (s.setMem v).fault = s.fault := rfl
@[simp] theorem State.setMem_mem (v : Memory) : (s.setMem v).mem = v := rfl
@[simp] theorem State.setMem_ticks (v : Memory) : (s.setMem v).ticks = s.ticks := rfl
@[simp] theorem State.setMem_hostCalls (v : Memory) : (s.setMem v).hostCalls = s.hostCalls := rfl
@[simp] theorem State.setMem_framesResult (v : Memory) : (s.setMem v).framesResult = s.framesResult := rfl
@[simp] theorem State.setMem_imageResult (v : Memory) : (s.setMem v).imageResult = s.imageResult := rfl
@[simp] theorem State.setMem_timerOwn (v : Memory) : (s.setMem v).timerOwn = s.timerOwn := rfl
@[simp] theorem State.setMem_displayOwn (v : Memory) : (s.setMem v).displayOwn = s.displayOwn := rfl

/-! `setTicks` -/

@[simp] theorem State.setTicks_params (v : Nat) : (s.setTicks v).params = s.params := rfl
@[simp] theorem State.setTicks_regs (v : Nat) : (s.setTicks v).regs = s.regs := rfl
@[simp] theorem State.setTicks_ime (v : Nat) : (s.setTicks v).ime = s.ime := rfl
@[simp] theorem State.setTicks_imePending (v : Nat) : (s.setTicks v).imePending = s.imePending := rfl
@[simp] theorem State.setTicks_halt (v : Nat) : (s.setTicks v).halt = s.halt := rfl
@[simp] theorem State.setTicks_stop (v : Nat) : (s.setTicks v).stop = s.stop := rfl
@[simp] theorem State.setTicks_intFlag (v : Nat) : (s.setTicks v).intFlag = s.intFlag := rfl
@[simp] theorem State.setTicks_intEnable (v : Nat) : (s.setTicks v).intEnable = s.intEnable := rfl
@[simp] theorem State.setTicks_speed (v : Nat) : (s.setTicks v).speed = s.speed := rfl
@[simp] theorem State.setTicks_switchPending (v : Nat) : (s.setTicks v).switchPending = s.switchPending := rfl
@[simp] theorem State.setTicks_totalTicks (v : Nat) : (s.setTicks v).totalTicks = s.totalTicks := rfl
@[simp] theorem State.setTicks_budget (v : Nat) : (s.setTicks v).budget = s.budget := rfl
@[simp] theorem State.setTicks_frameCount (v : Nat) : (s.setTicks v).frameCount = s.frameCount := rfl
@[simp] theorem State.setTicks_buttons (v : Nat) : (s.setTicks v).buttons = s.buttons := rfl
@[simp] theorem State.setTicks_directions (v : Nat) : (s.setTicks v).directions = s.directions := rfl
@[simp] theorem State.setTicks_select (v : Nat) : (s.setTicks v).select = s.select := rfl
@[simp] theorem State.setTicks_fault (v : Nat) : (s.setTicks v).fault = s.fault := rfl
@[simp] theorem State.setTicks_mem (v : Nat) : (s.setTicks v).mem = s.mem := rfl
@[simp] theorem State.setTicks_ticks (v : Nat) : (s.setTicks v).ticks = v := rfl
@[simp] theorem State.setTicks_hostCalls (v : Nat) : (s.setTicks v).hostCalls = s.hostCalls := rfl
@[simp] theorem State.setTicks_framesResult (v : Nat) : (s.setTicks v).framesResult = s.framesResult := rfl
@[simp] theorem State.setTicks_imageResult (v : Nat) : (s.setTicks v).imageResult = s.imageResult := rfl
@[simp] theorem State.setTicks_timerOwn (v : Nat) : (s.setTicks v).timerOwn = s.timerOwn := rfl
@[simp] theorem State.setTicks_displayOwn (v : Nat) : (s.setTicks v).displayOwn = s.displayOwn := rfl

/-! `setHostCalls` -/

@[simp] theorem State.setHostCalls_params (v : List HostCall) : (s.setHostCalls v).params = s.params := rfl
@[simp] theorem State.setHostCalls_regs (v : List HostCall) : (s.setHostCalls v).regs = s.regs := rfl
@[simp] theorem State.setHostCalls_ime (v : List HostCall) : (s.setHostCalls v).ime = s.ime := rfl
@[simp] theorem State.setHostCalls_imePending (v : List HostCall) : (s.setHostCalls v).imePending = s.imePending := rfl
@[simp] theorem State.setHostCalls_halt (v : List HostCall) : (s.setHostCalls v).halt = s.halt := rfl
@[simp] theorem State.setHostCalls_stop (v : List HostCall) : (s.setHostCalls v).stop = s.stop := rfl
@[simp] theorem State.setHostCalls_intFlag (v : List HostCall) : (s.setHostCalls v).intFlag = s.intFlag := rfl
@[simp] theorem State.setHostCalls_intEnable (v : List HostCall) : (s.setHostCalls v).intEnable = s.intEnable := rfl
@[simp] theorem State.setHostCalls_speed (v : List HostCall) : (s.setHostCalls v).speed = s.speed := rfl
@[simp] theorem State.setHostCalls_switchPending (v : List HostCall) : (s.setHostCalls v).switchPending = s.switchPending := rfl
@[simp] theorem State.setHostCalls_totalTicks (v : List HostCall) : (s.setHostCalls v).totalTicks = s.totalTicks := rfl
@[simp] theorem State.setHostCalls_budget (v : List HostCall) : (s.setHostCalls v).budget = s.budget := rfl
@[simp] theorem State.setHostCalls_frameCount (v : List HostCall) : (s.setHostCalls v).frameCount = s.frameCount := rfl
@[simp] theorem State.setHostCalls_buttons (v : List HostCall) : (s.setHostCalls v).buttons = s.buttons := rfl
@[simp] theorem State.setHostCalls_directions (v : List HostCall) : (s.setHostCalls v).directions = s.directions := rfl
@[simp] theorem State.setHostCalls_select (v : List HostCall) : (s.setHostCalls v).select = s.select := rfl
@[simp] theorem State.setHostCalls_fault (v : List HostCall) : (s.setHostCalls v).fault = s.fault := rfl
@[simp] theorem State.setHostCalls_mem (v : List HostCall) : (s.setHostCalls v).mem = s.mem := rfl
@[simp] theorem State.setHostCalls_ticks (v : List HostCall) : (s.setHostCalls v).ticks = s.ticks := rfl
@[simp] theorem State.setHostCalls_hostCalls (v : List HostCall) : (s.setHostCalls v).hostCalls = v := rfl
@[simp] theorem State.setHostCalls_framesResult (v : List HostCall) : (s.setHostCalls v).framesResult = s.framesResult := rfl
@[simp] theorem State.setHostCalls_imageResult (v : List HostCall) : (s.setHostCalls v).imageResult = s.imageResult := rfl
@[simp] theorem State.setHostCalls_timerOwn (v : List HostCall) : (s.setHostCalls v).timerOwn = s.timerOwn := rfl
@[simp] theorem State.setHostCalls_displayOwn (v : List HostCall) : (s.setHostCalls v).displayOwn = s.displayOwn := rfl

/-! `setFramesResult` -/

@[simp] theorem State.setFramesResult_params (v : Count) : (s.setFramesResult v).params = s.params := rfl
@[simp] theorem State.setFramesResult_regs (v : Count) : (s.setFramesResult v).regs = s.regs := rfl
@[simp] theorem State.setFramesResult_ime (v : Count) : (s.setFramesResult v).ime = s.ime := rfl
@[simp] theorem State.setFramesResult_imePending (v : Count) : (s.setFramesResult v).imePending = s.imePending := rfl
@[simp] theorem State.setFramesResult_halt (v : Count) : (s.setFramesResult v).halt = s.halt := rfl
@[simp] theorem State.setFramesResult_stop (v : Count) : (s.setFramesResult v).stop = s.stop := rfl
@[simp] theorem State.setFramesResult_intFlag (v : Count) : (s.setFramesResult v).intFlag = s.intFlag := rfl
@[simp] theorem State.setFramesResult_intEnable (v : Count) : (s.setFramesResult v).intEnable = s.intEnable := rfl
@[simp] theorem State.setFramesResult_speed (v : Count) : (s.setFramesResult v).speed = s.speed := rfl
@[simp] theorem State.setFramesResult_switchPending (v : Count) : (s.setFramesResult v).switchPending = s.switchPending := rfl
@[simp] theorem State.setFramesResult_totalTicks (v : Count) : (s.setFramesResult v).totalTicks = s.totalTicks := rfl
@[simp] theorem State.setFramesResult_budget (v : Count) : (s.setFramesResult v).budget = s.budget := rfl
@[simp] theorem State.setFramesResult_frameCount (v : Count) : (s.setFramesResult v).frameCount = s.frameCount := rfl
@[simp] theorem State.setFramesResult_buttons (v : Count) : (s.setFramesResult v).buttons = s.buttons := rfl
@[simp] theorem State.setFramesResult_directions (v : Count) : (s.setFramesResult v).directions = s.directions := rfl
@[simp] theorem State.setFramesResult_select (v : Count) : (s.setFramesResult v).select = s.select := rfl
@[simp] theorem State.setFramesResult_fault (v : Count) : (s.setFramesResult v).fault = s.fault := rfl
@[simp] theorem State.setFramesResult_mem (v : Count) : (s.setFramesResult v).mem = s.mem := rfl
@[simp] theorem State.setFramesResult_ticks (v : Count) : (s.setFramesResult v).ticks = s.ticks := rfl
@[simp] theorem State.setFramesResult_hostCalls (v : Count) : (s.setFramesResult v).hostCalls = s.hostCalls := rfl
@[simp] theorem State.setFramesResult_framesResult (v : Count) : (s.setFramesResult v).framesResult = v := rfl
@[simp] theorem State.setFramesResult_imageResult (v : Count) : (s.setFramesResult v).imageResult = s.imageResult := rfl
@[simp] theorem State.setFramesResult_timerOwn (v : Count) : (s.setFramesResult v).timerOwn = s.timerOwn := rfl
@[simp] theorem State.setFramesResult_displayOwn (v : Count) : (s.setFramesResult v).displayOwn = s.displayOwn := rfl

/-! `setImageResult` -/

@[simp] theorem State.setImageResult_params (v : List Byte) : (s.setImageResult v).params = s.params := rfl
@[simp] theorem State.setImageResult_regs (v : List Byte) : (s.setImageResult v).regs = s.regs := rfl
@[simp] theorem State.setImageResult_ime (v : List Byte) : (s.setImageResult v).ime = s.ime := rfl
@[simp] theorem State.setImageResult_imePending (v : List Byte) : (s.setImageResult v).imePending = s.imePending := rfl
@[simp] theorem State.setImageResult_halt (v : List Byte) : (s.setImageResult v).halt = s.halt := rfl
@[simp] theorem State.setImageResult_stop (v : List Byte) : (s.setImageResult v).stop = s.stop := rfl
@[simp] theorem State.setImageResult_intFlag (v : List Byte) : (s.setImageResult v).intFlag = s.intFlag := rfl
@[simp] theorem State.setImageResult_intEnable (v : List Byte) : (s.setImageResult v).intEnable = s.intEnable := rfl
@[simp] theorem State.setImageResult_speed (v : List Byte) : (s.setImageResult v).speed = s.speed := rfl
@[simp] theorem State.setImageResult_switchPending (v : List Byte) : (s.setImageResult v).switchPending = s.switchPending := rfl
@[simp] theorem State.setImageResult_totalTicks (v : List Byte) : (s.setImageResult v).totalTicks = s.totalTicks := rfl
@[simp] theorem State.setImageResult_budget (v : List Byte) : (s.setImageResult v).budget = s.budget := rfl
@[simp] theorem State.setImageResult_frameCount (v : List Byte) : (s.setImageResult v).frameCount = s.frameCount := rfl
@[simp] theorem State.setImageResult_buttons (v : List Byte) : (s.setImageResult v).buttons = s.buttons := rfl
@[simp] theorem State.setImageResult_directions (v : List Byte) : (s.setImageResult v).directions = s.directions := rfl
@[simp] theorem State.setImageResult_select (v : List Byte) : (s.setImageResult v).select = s.select := rfl
@[simp] theorem State.setImageResult_fault (v : List Byte) : (s.setImageResult v).fault = s.fault := rfl
@[simp] theorem State.setImageResult_mem (v : List Byte) : (s.setImageResult v).mem = s.mem := rfl
@[simp] theorem State.setImageResult_ticks (v : List Byte) : (s.setImageResult v).ticks = s.ticks := rfl
@[simp] theorem State.setImageResult_hostCalls (v : List Byte) : (s.setImageResult v).hostCalls = s.hostCalls := rfl
@[simp] theorem State.setImageResult_framesResult (v : List Byte) : (s.setImageResult v).framesResult = s.framesResult := rfl
@[simp] theorem State.setImageResult_imageResult (v : List Byte) : (s.setImageResult v).imageResult = v := rfl
@[simp] theorem State.setImageResult_timerOwn (v : List Byte) : (s.setImageResult v).timerOwn = s.timerOwn := rfl
@[simp] theorem State.setImageResult_displayOwn (v : List Byte) : (s.setImageResult v).displayOwn = s.displayOwn := rfl

/-! `setTimerOwn` -/

@[simp] theorem State.setTimerOwn_params (v : Nat) : (s.setTimerOwn v).params = s.params := rfl
@[simp] theorem State.setTimerOwn_regs (v : Nat) : (s.setTimerOwn v).regs = s.regs := rfl
@[simp] theorem State.setTimerOwn_ime (v : Nat) : (s.setTimerOwn v).ime = s.ime := rfl
@[simp] theorem State.setTimerOwn_imePending (v : Nat) : (s.setTimerOwn v).imePending = s.imePending := rfl
@[simp] theorem State.setTimerOwn_halt (v : Nat) : (s.setTimerOwn v).halt = s.halt := rfl
@[simp] theorem State.setTimerOwn_stop (v : Nat) : (s.setTimerOwn v).stop = s.stop := rfl
@[simp] theorem State.setTimerOwn_intFlag (v : Nat) : (s.setTimerOwn v).intFlag = s.intFlag := rfl
@[simp] theorem State.setTimerOwn_intEnable (v : Nat) : (s.setTimerOwn v).intEnable = s.intEnable := rfl
@[simp] theorem State.setTimerOwn_speed (v : Nat) : (s.setTimerOwn v).speed = s.speed := rfl
@[simp] theorem State.setTimerOwn_switchPending (v : Nat) : (s.setTimerOwn v).switchPending = s.switchPending := rfl
@[simp] theorem State.setTimerOwn_totalTicks (v : Nat) : (s.setTimerOwn v).totalTicks = s.totalTicks := rfl
@[simp] theorem State.setTimerOwn_budget (v : Nat) : (s.setTimerOwn v).budget = s.budget := rfl
@[simp] theorem State.setTimerOwn_frameCount (v : Nat) : (s.setTimerOwn v).frameCount = s.frameCount := rfl
@[simp] theorem State.setTimerOwn_buttons (v : Nat) : (s.setTimerOwn v).buttons = s.buttons := rfl
@[simp] theorem State.setTimerOwn_directions (v : Nat) : (s.setTimerOwn v).directions = s.directions := rfl
@[simp] theorem State.setTimerOwn_select (v : Nat) : (s.setTimerOwn v).select = s.select := rfl
@[simp] theorem State.setTimerOwn_fault (v : Nat) : (s.setTimerOwn v).fault = s.fault := rfl
@[simp] theorem State.setTimerOwn_mem (v : Nat) : (s.setTimerOwn v).mem = s.mem := rfl
@[simp] theorem State.setTimerOwn_ticks (v : Nat) : (s.setTimerOwn v).ticks = s.ticks := rfl
@[simp] theorem State.setTimerOwn_hostCalls (v : Nat) : (s.setTimerOwn v).hostCalls = s.hostCalls := rfl
@[simp] theorem State.setTimerOwn_framesResult (v : Nat) : (s.setTimerOwn v).framesResult = s.framesResult := rfl
@[simp] theorem State.setTimerOwn_imageResult (v : Nat) : (s.setTimerOwn v).imageResult = s.imageResult := rfl
@[simp] theorem State.setTimerOwn_timerOwn (v : Nat) : (s.setTimerOwn v).timerOwn = v := rfl
@[simp] theorem State.setTimerOwn_displayOwn (v : Nat) : (s.setTimerOwn v).displayOwn = s.displayOwn := rfl

/-! `setDisplayOwn` -/

@[simp] theorem State.setDisplayOwn_params (v : Nat) : (s.setDisplayOwn v).params = s.params := rfl
@[simp] theorem State.setDisplayOwn_regs (v : Nat) : (s.setDisplayOwn v).regs = s.regs := rfl
@[simp] theorem State.setDisplayOwn_ime (v : Nat) : (s.setDisplayOwn v).ime = s.ime := rfl
@[simp] theorem State.setDisplayOwn_imePending (v : Nat) : (s.setDisplayOwn v).imePending = s.imePending := rfl
@[simp] theorem State.setDisplayOwn_halt (v : Nat) : (s.setDisplayOwn v).halt = s.halt := rfl
@[simp] theorem State.setDisplayOwn_stop (v : Nat) : (s.setDisplayOwn v).stop = s.stop := rfl
@[simp] theorem State.setDisplayOwn_intFlag (v : Nat) : (s.setDisplayOwn v).intFlag = s.intFlag := rfl
@[simp] theorem State.setDisplayOwn_intEnable (v : Nat) : (s.setDisplayOwn v).intEnable = s.intEnable := rfl
@[simp] theorem State.setDisplayOwn_speed (v : Nat) : (s.setDisplayOwn v).speed = s.speed := rfl
@[simp] theorem State.setDisplayOwn_switchPending (v : Nat) : (s.setDisplayOwn v).switchPending = s.switchPending := rfl
@[simp] theorem State.setDisplayOwn_totalTicks (v : Nat) : (s.setDisplayOwn v).totalTicks = s.totalTicks := rfl
@[simp] theorem State.setDisplayOwn_budget (v : Nat) : (s.setDisplayOwn v).budget = s.budget := rfl
@[simp] theorem State.setDisplayOwn_frameCount (v : Nat) : (s.setDisplayOwn v).frameCount = s.frameCount := rfl
@[simp] theorem State.setDisplayOwn_buttons (v : Nat) : (s.setDisplayOwn v).buttons = s.buttons := rfl
@[simp] theorem State.setDisplayOwn_directions (v : Nat) : (s.setDisplayOwn v).directions = s.directions := rfl
@[simp] theorem State.setDisplayOwn_select (v : Nat) : (s.setDisplayOwn v).select = s.select := rfl
@[simp] theorem State.setDisplayOwn_fault (v : Nat) : (s.setDisplayOwn v).fault = s.fault := rfl
@[simp] theorem State.setDisplayOwn_mem (v : Nat) : (s.setDisplayOwn v).mem = s.mem := rfl
@[simp] theorem State.setDisplayOwn_ticks (v : Nat) : (s.setDisplayOwn v).ticks = s.ticks := rfl
@[simp] theorem State.setDisplayOwn_hostCalls (v : Nat) : (s.setDisplayOwn v).hostCalls = s.hostCalls := rfl
@[simp] theorem State.setDisplayOwn_framesResult (v : Nat) : (s.setDisplayOwn v).framesResult = s.framesResult := rfl
@[simp] theorem State.setDisplayOwn_imageResult (v : Nat) : (s.setDisplayOwn v).imageResult = s.imageResult := rfl
@[simp] theorem State.setDisplayOwn_timerOwn (v : Nat) : (s.setDisplayOwn v).timerOwn = s.timerOwn := rfl
@[simp] theorem State.setDisplayOwn_displayOwn (v : Nat) : (s.setDisplayOwn v).displayOwn = v := rfl

/-! `setPc` -/

@[simp] theorem State.setPc_params (v : Word) : (s.setPc v).params = s.params := rfl
@[simp] theorem State.setPc_regs (v : Word) : (s.setPc v).regs = { s.regs with pc := v } := rfl
@[simp] theorem State.setPc_ime (v : Word) : (s.setPc v).ime = s.ime := rfl
@[simp] theorem State.setPc_imePending (v : Word) : (s.setPc v).imePending = s.imePending := rfl
@[simp] theorem State.setPc_halt (v : Word) : (s.setPc v).halt = s.halt := rfl
@[simp] theorem State.setPc_stop (v : Word) : (s.setPc v).stop = s.stop := rfl
@[simp] theorem State.setPc_intFlag (v : Word) : (s.setPc v).intFlag = s.intFlag := rfl
@[simp] theorem State.setPc_intEnable (v : Word) : (s.setPc v).intEnable = s.intEnable := rfl
@[simp] theorem State.setPc_speed (v : Word) : (s.setPc v).speed = s.speed := rfl
@[simp] theorem State.setPc_switchPending (v : Word) : (s.setPc v).switchPending = s.switchPending := rfl
@[simp] theorem State.setPc_totalTicks (v : Word) : (s.setPc v).totalTicks = s.totalTicks := rfl
@[simp] theorem State.setPc_budget (v : Word) : (s.setPc v).budget = s.budget := rfl
@[simp] theorem State.setPc_frameCount (v : Word) : (s.setPc v).frameCount = s.frameCount := rfl
@[simp] theorem State.setPc_buttons (v : Word) : (s.setPc v).buttons = s.buttons := rfl
@[simp] theorem State.setPc_directions (v : Word) : (s.setPc v).directions = s.directions := rfl
@[simp] theorem State.setPc_select (v : Word) : (s.setPc v).select = s.select := rfl
@[simp] theorem State.setPc_fault (v : Word) : (s.setPc v).fault = s.fault := rfl
@[simp] theorem State.setPc_mem (v : Word) : (s.setPc v).mem = s.mem := rfl
@[simp] theorem State.setPc_ticks (v : Word) : (s.setPc v).ticks = s.ticks := rfl
@[simp] theorem State.setPc_hostCalls (v : Word) : (s.setPc v).hostCalls = s.hostCalls := rfl
@[simp] theorem State.setPc_framesResult (v : Word) : (s.setPc v).framesResult = s.framesResult := rfl
@[simp] theorem State.setPc_imageResult (v : Word) : (s.setPc v).imageResult = s.imageResult := rfl
@[simp] theorem State.setPc_timerOwn (v : Word) : (s.setPc v).timerOwn = s.timerOwn := rfl
@[simp] theorem State.setPc_displayOwn (v : Word) : (s.setPc v).displayOwn = s.displayOwn := rfl

/-! `setSp` -/

@[simp] theorem State.setSp_params (v : Word) : (s.setSp v).params = s.params := rfl
@[simp] theorem State.setSp_regs (v : Word) : (s.setSp v).regs = { s.regs with sp := v } := rfl
@[simp] theorem State.setSp_ime (v : Word) : (s.setSp v).ime = s.ime := rfl
@[simp] theorem State.setSp_imePending (v : Word) : (s.setSp v).imePending = s.imePending := rfl
@[simp] theorem State.setSp_halt (v : Word) : (s.setSp v).halt = s.halt := rfl
@[simp] theorem State.setSp_stop (v : Word) : (s.setSp v).stop = s.stop := rfl
@[simp] theorem State.setSp_intFlag (v : Word) : (s.setSp v).intFlag = s.intFlag := rfl
@[simp] theorem State.setSp_intEnable (v : Word) : (s.setSp v).intEnable = s.intEnable := rfl
@[simp] theorem State.setSp_speed (v : Word) : (s.setSp v).speed = s.speed := rfl
@[simp] theorem State.setSp_switchPending (v : Word) : (s.setSp v).switchPending = s.switchPending := rfl
@[simp] theorem State.setSp_totalTicks (v : Word) : (s.setSp v).totalTicks = s.totalTicks := rfl
@[simp] theorem State.setSp_budget (v : Word) : (s.setSp v).budget = s.budget := rfl
@[simp] theorem State.setSp_frameCount (v : Word) : (s.setSp v).frameCount = s.frameCount := rfl
@[simp] theorem State.setSp_buttons (v : Word) : (s.setSp v).buttons = s.buttons := rfl
@[simp] theorem State.setSp_directions (v : Word) : (s.setSp v).directions = s.directions := rfl
@[simp] theorem State.setSp_select (v : Word) : (s.setSp v).select = s.select := rfl
@[simp] theorem State.setSp_fault (v : Word) : (s.setSp v).fault = s.fault := rfl
@[simp] theorem State.setSp_mem (v : Word) : (s.setSp v).mem = s.mem := rfl
@[simp] theorem State.setSp_ticks (v : Word) : (s.setSp v).ticks = s.ticks := rfl
@[simp] theorem State.setSp_hostCalls (v : Word) : (s.setSp v).hostCalls = s.hostCalls := rfl
@[simp] theorem State.setSp_framesResult (v : Word) : (s.setSp v).framesResult = s.framesResult := rfl
@[simp] theorem State.setSp_imageResult (v : Word) : (s.setSp v).imageResult = s.imageResult := rfl
@[simp] theorem State.setSp_timerOwn (v : Word) : (s.setSp v).timerOwn = s.timerOwn := rfl
@[simp] theorem State.setSp_displayOwn (v : Word) : (s.setSp v).displayOwn = s.displayOwn := rfl

end Sys2Proof.Machine
end

