-- ==== Sys2Proof/Laws/Bus.lean ====
section
/-! SUPPORT. The bus: what a write changes and what a read sees (20_memory.md R40, R45). -/

namespace Sys2Proof.Machine

variable (s : State) (a : Word) (v : Byte)

/-! ### The core register addresses -/

theorem busTarget_intFlag {a : Word} : busTarget a = .intFlag ↔ a = 0xFF0F := by
  unfold busTarget; repeat' split
  all_goals simp_all

theorem busTarget_intEnable {a : Word} : busTarget a = .intEnable ↔ a = 0xFFFF := by
  unfold busTarget; repeat' split
  all_goals simp_all

theorem busTarget_joypad {a : Word} : busTarget a = .joypad ↔ a = 0xFF00 := by
  unfold busTarget; repeat' split
  all_goals simp_all

theorem busTarget_key1 {a : Word} : busTarget a = .key1 ↔ a = 0xFF4D := by
  unfold busTarget; repeat' split
  all_goals simp_all

/-! ### A write leaves every field it does not reach -/

@[simp] theorem memWrite_params : (memWrite s a v).params = s.params := by
  unfold memWrite State.joypWrite State.key1Write; repeat' split
  all_goals rfl

@[simp] theorem memWrite_regs : (memWrite s a v).regs = s.regs := by
  unfold memWrite State.joypWrite State.key1Write; repeat' split
  all_goals rfl

@[simp] theorem memWrite_ime : (memWrite s a v).ime = s.ime := by
  unfold memWrite State.joypWrite State.key1Write; repeat' split
  all_goals rfl

@[simp] theorem memWrite_imePending : (memWrite s a v).imePending = s.imePending := by
  unfold memWrite State.joypWrite State.key1Write; repeat' split
  all_goals rfl

@[simp] theorem memWrite_halt : (memWrite s a v).halt = s.halt := by
  unfold memWrite State.joypWrite State.key1Write; repeat' split
  all_goals rfl

@[simp] theorem memWrite_stop : (memWrite s a v).stop = s.stop := by
  unfold memWrite State.joypWrite State.key1Write; repeat' split
  all_goals rfl

@[simp] theorem memWrite_speed : (memWrite s a v).speed = s.speed := by
  unfold memWrite State.joypWrite State.key1Write; repeat' split
  all_goals rfl

@[simp] theorem memWrite_totalTicks : (memWrite s a v).totalTicks = s.totalTicks := by
  unfold memWrite State.joypWrite State.key1Write; repeat' split
  all_goals rfl

@[simp] theorem memWrite_budget : (memWrite s a v).budget = s.budget := by
  unfold memWrite State.joypWrite State.key1Write; repeat' split
  all_goals rfl

@[simp] theorem memWrite_frameCount : (memWrite s a v).frameCount = s.frameCount := by
  unfold memWrite State.joypWrite State.key1Write; repeat' split
  all_goals rfl

@[simp] theorem memWrite_buttons : (memWrite s a v).buttons = s.buttons := by
  unfold memWrite State.joypWrite State.key1Write; repeat' split
  all_goals rfl

@[simp] theorem memWrite_directions : (memWrite s a v).directions = s.directions := by
  unfold memWrite State.joypWrite State.key1Write; repeat' split
  all_goals rfl

@[simp] theorem memWrite_fault : (memWrite s a v).fault = s.fault := by
  unfold memWrite State.joypWrite State.key1Write; repeat' split
  all_goals rfl

@[simp] theorem memWrite_ticks : (memWrite s a v).ticks = s.ticks := by
  unfold memWrite State.joypWrite State.key1Write; repeat' split
  all_goals rfl

@[simp] theorem memWrite_hostCalls : (memWrite s a v).hostCalls = s.hostCalls := by
  unfold memWrite State.joypWrite State.key1Write; repeat' split
  all_goals rfl

@[simp] theorem memWrite_framesResult : (memWrite s a v).framesResult = s.framesResult := by
  unfold memWrite State.joypWrite State.key1Write; repeat' split
  all_goals rfl
@[simp] theorem memWrite_imageResult : (memWrite s a v).imageResult = s.imageResult := by
  unfold memWrite State.joypWrite State.key1Write; repeat' split
  all_goals rfl

@[simp] theorem memWrite_timerOwn : (memWrite s a v).timerOwn = s.timerOwn := by
  unfold memWrite State.joypWrite State.key1Write; repeat' split
  all_goals rfl

@[simp] theorem memWrite_displayOwn : (memWrite s a v).displayOwn = s.displayOwn := by
  unfold memWrite State.joypWrite State.key1Write; repeat' split
  all_goals rfl

/-- The fields a write reaches, each as a choice on the address. -/
theorem memWrite_intFlag :
    (memWrite s a v).intFlag = if a = 0xFF0F then v else s.intFlag := by
  simp only [← busTarget_intFlag]
  unfold memWrite State.joypWrite State.key1Write
  cases h : busTarget a <;> simp only <;> (try split) <;> simp_all

theorem memWrite_intEnable :
    (memWrite s a v).intEnable = if a = 0xFFFF then v else s.intEnable := by
  simp only [← busTarget_intEnable]
  unfold memWrite State.joypWrite State.key1Write
  cases h : busTarget a <;> simp only <;> (try split) <;> simp_all

theorem memWrite_mem :
    (memWrite s a v).mem = if busTarget a = .ext then Memory.write s.mem a.toNat v else s.mem := by
  unfold memWrite State.joypWrite State.key1Write
  cases h : busTarget a <;> simp only <;> (try split) <;> simp_all

theorem memWrite_select :
    (memWrite s a v).select = if a = 0xFF00 then (joypColumn v).getD s.select else s.select := by
  simp only [← busTarget_joypad]
  unfold memWrite State.joypWrite State.key1Write
  cases h : busTarget a <;> simp only <;> (try split) <;> simp_all

theorem memWrite_switchPending :
    (memWrite s a v).switchPending =
      if a = 0xFF4D ∧ s.params.target = .color then v.getLsbD 0 else s.switchPending := by
  simp only [← busTarget_key1]
  unfold memWrite State.joypWrite State.key1Write
  cases h : busTarget a <;> simp only <;> (try split) <;> simp_all

/-! ### A read sees only the fields of the bus -/

@[simp] theorem memRead_setRegs (x : Regs) : memRead (s.setRegs x) a = memRead s a := rfl
@[simp] theorem memRead_setIme (x : Bool) : memRead (s.setIme x) a = memRead s a := rfl
@[simp] theorem memRead_setImePending (x : Bool) : memRead (s.setImePending x) a = memRead s a := rfl
@[simp] theorem memRead_setHalt (x : Bool) : memRead (s.setHalt x) a = memRead s a := rfl
@[simp] theorem memRead_setStop (x : Bool) : memRead (s.setStop x) a = memRead s a := rfl
@[simp] theorem memRead_setTotalTicks (x : Count) : memRead (s.setTotalTicks x) a = memRead s a := rfl
@[simp] theorem memRead_setBudget (x : Int) : memRead (s.setBudget x) a = memRead s a := rfl
@[simp] theorem memRead_setFrameCount (x : Count) : memRead (s.setFrameCount x) a = memRead s a := rfl
@[simp] theorem memRead_setFault (x : Option Fault) : memRead (s.setFault x) a = memRead s a := rfl
@[simp] theorem memRead_setTicks (x : Nat) : memRead (s.setTicks x) a = memRead s a := rfl
@[simp] theorem memRead_setHostCalls (x : List HostCall) : memRead (s.setHostCalls x) a = memRead s a := rfl
@[simp] theorem memRead_setFramesResult (x : Count) : memRead (s.setFramesResult x) a = memRead s a := rfl
@[simp] theorem memRead_setImageResult (x : List Byte) : memRead (s.setImageResult x) a = memRead s a := rfl
@[simp] theorem memRead_setTimerOwn (x : Nat) : memRead (s.setTimerOwn x) a = memRead s a := rfl
@[simp] theorem memRead_setDisplayOwn (x : Nat) : memRead (s.setDisplayOwn x) a = memRead s a := rfl
@[simp] theorem memRead_setPc (x : Word) : memRead (s.setPc x) a = memRead s a := rfl
@[simp] theorem memRead_setSp (x : Word) : memRead (s.setSp x) a = memRead s a := rfl

/-- A write leaves every other address as it was (20_memory.md R40, R48). -/
theorem memRead_memWrite_other {a b : Word} (h : b ≠ a) : memRead (memWrite s a v) b = memRead s b := by
  cases hb : busTarget b with
  | intFlag =>
    have e := busTarget_intFlag.1 hb
    simp only [memRead, hb, memWrite_intFlag, if_neg (fun k : a = 0xFF0F => h (e.trans k.symm))]
  | intEnable =>
    have e := busTarget_intEnable.1 hb
    simp only [memRead, hb, memWrite_intEnable, if_neg (fun k : a = 0xFFFF => h (e.trans k.symm))]
  | joypad =>
    have e := busTarget_joypad.1 hb
    simp only [memRead, hb, State.joypRead, memWrite_select, memWrite_buttons, memWrite_directions,
      memWrite_params, if_neg (fun k : a = 0xFF00 => h (e.trans k.symm))]
  | key1 =>
    have e := busTarget_key1.1 hb
    have k : ¬(a = 0xFF4D ∧ s.params.target = .color) := fun k => h (e.trans k.1.symm)
    simp only [memRead, hb, State.key1Read, memWrite_switchPending, memWrite_params, memWrite_speed, if_neg k]
  | ext =>
    simp only [memRead, hb, memWrite_mem]
    split
    · exact Memory.read_write_other _ _ (fun k => h (BitVec.eq_of_toNat_eq k))
    · rfl

/-- A plain byte reads back as written (20_memory.md R48). -/
theorem memRead_memWrite_ext {s : State} {a : Word} (hm : Memory.wf s.mem) (ha : busTarget a = .ext) :
    memRead (memWrite s a v) a = v := by
  simp only [memRead, ha, memWrite_mem, if_true]
  exact Memory.read_write_same hm.1 _ _

/-- IF and IE read back as written (20_memory.md R45). -/
theorem memRead_memWrite_intFlag : memRead (memWrite s 0xFF0F v) 0xFF0F = v := rfl

theorem memRead_memWrite_intEnable : memRead (memWrite s 0xFFFF v) 0xFFFF = v := rfl

/-- A byte reads back as written everywhere but at the joypad register and KEY1 (20_memory.md R45, R48). -/
theorem memRead_memWrite_same {s : State} {a : Word} (hm : Memory.wf s.mem) (h1 : a ≠ 0xFF00) (h2 : a ≠ 0xFF4D) :
    memRead (memWrite s a v) a = v := by
  cases h : busTarget a with
  | intFlag => rw [busTarget_intFlag.1 h]; rfl
  | intEnable => rw [busTarget_intEnable.1 h]; rfl
  | joypad => exact absurd (busTarget_joypad.1 h) h1
  | key1 => exact absurd (busTarget_key1.1 h) h2
  | ext => exact memRead_memWrite_ext v hm h

/-- A bus write keeps the canonical form. -/
theorem memWrite_wf {s : State} (hm : Memory.wf s.mem) : Memory.wf (memWrite s a v).mem := by
  rw [memWrite_mem]; split
  · rename_i h
    exact Memory.write_wf hm a.isLt (by simpa using h)
  · exact hm

end Sys2Proof.Machine
end

