-- ==== Sys2Proof/Laws/Ops.lean ====
section
/-! SUPPORT. What each shared operation can do: going on after a next state, fetch, push, pop, raising, taking and
returning from an interrupt. -/

namespace Sys2Proof.Machine

/-! ### Going on -/

@[simp] theorem bindNext_next (s : State) (k : State → Result) : bindNext (.next s) k = k s := rfl
@[simp] theorem bindNext_fault (f : Fault) (k : State → Result) : bindNext (.fault f) k = .fault f := rfl
@[simp] theorem bindNext_refused (f : Refusal) (k : State → Result) : bindNext (.refused f) k = .refused f := rfl

theorem bindNext_eq_next {r : Result} {k : State → Result} {t : State} :
    bindNext r k = .next t ↔ ∃ s, r = .next s ∧ k s = .next t := by
  cases r <;> simp

theorem bindNext_eq_fault {r : Result} {k : State → Result} {f : Fault} :
    bindNext r k = .fault f ↔ r = .fault f ∨ ∃ s, r = .next s ∧ k s = .fault f := by
  cases r <;> simp

/-! ### Fetch and pop -/

variable (s : State)

@[simp] theorem fetchByte_fst : (fetchByte s).1 = memRead s s.regs.pc := rfl
@[simp] theorem fetchByte_snd : (fetchByte s).2 = s.setPc (s.regs.pc + 1) := rfl
@[simp] theorem pop16_fst : (pop16 s).1 = joinBytes (memRead s (s.regs.sp + 1)) (memRead s s.regs.sp) := rfl
@[simp] theorem pop16_snd : (pop16 s).2 = s.setSp (s.regs.sp + 2) := rfl

/-! ### Push -/

@[simp] theorem pushByte_params (v : Byte) : (pushByte v s).params = s.params := by simp [pushByte]
@[simp] theorem pushByte_regs (v : Byte) : (pushByte v s).regs = { s.regs with sp := s.regs.sp - 1 } := by simp [pushByte]
@[simp] theorem pushByte_ime (v : Byte) : (pushByte v s).ime = s.ime := by simp [pushByte]
@[simp] theorem pushByte_imePending (v : Byte) : (pushByte v s).imePending = s.imePending := by simp [pushByte]
@[simp] theorem pushByte_halt (v : Byte) : (pushByte v s).halt = s.halt := by simp [pushByte]
@[simp] theorem pushByte_stop (v : Byte) : (pushByte v s).stop = s.stop := by simp [pushByte]
@[simp] theorem pushByte_speed (v : Byte) : (pushByte v s).speed = s.speed := by simp [pushByte]
@[simp] theorem pushByte_totalTicks (v : Byte) : (pushByte v s).totalTicks = s.totalTicks := by simp [pushByte]
@[simp] theorem pushByte_budget (v : Byte) : (pushByte v s).budget = s.budget := by simp [pushByte]
@[simp] theorem pushByte_frameCount (v : Byte) : (pushByte v s).frameCount = s.frameCount := by simp [pushByte]
@[simp] theorem pushByte_buttons (v : Byte) : (pushByte v s).buttons = s.buttons := by simp [pushByte]
@[simp] theorem pushByte_directions (v : Byte) : (pushByte v s).directions = s.directions := by simp [pushByte]
@[simp] theorem pushByte_fault (v : Byte) : (pushByte v s).fault = s.fault := by simp [pushByte]
@[simp] theorem pushByte_ticks (v : Byte) : (pushByte v s).ticks = s.ticks := by simp [pushByte]
@[simp] theorem pushByte_hostCalls (v : Byte) : (pushByte v s).hostCalls = s.hostCalls := by simp [pushByte]
@[simp] theorem pushByte_framesResult (v : Byte) : (pushByte v s).framesResult = s.framesResult := by simp [pushByte]
@[simp] theorem pushByte_imageResult (v : Byte) : (pushByte v s).imageResult = s.imageResult := by simp [pushByte]
@[simp] theorem pushByte_timerOwn (v : Byte) : (pushByte v s).timerOwn = s.timerOwn := by simp [pushByte]
@[simp] theorem pushByte_displayOwn (v : Byte) : (pushByte v s).displayOwn = s.displayOwn := by simp [pushByte]

@[simp] theorem push16_params (v : Word) : (push16 v s).params = s.params := by simp [push16]
@[simp] theorem push16_regs (v : Word) : (push16 v s).regs = { s.regs with sp := s.regs.sp - 2 } := by
  simp only [push16, pushByte_regs, BitVec.sub_sub]
  rfl
@[simp] theorem push16_ime (v : Word) : (push16 v s).ime = s.ime := by simp [push16]
@[simp] theorem push16_imePending (v : Word) : (push16 v s).imePending = s.imePending := by simp [push16]
@[simp] theorem push16_halt (v : Word) : (push16 v s).halt = s.halt := by simp [push16]
@[simp] theorem push16_stop (v : Word) : (push16 v s).stop = s.stop := by simp [push16]
@[simp] theorem push16_speed (v : Word) : (push16 v s).speed = s.speed := by simp [push16]
@[simp] theorem push16_totalTicks (v : Word) : (push16 v s).totalTicks = s.totalTicks := by simp [push16]
@[simp] theorem push16_budget (v : Word) : (push16 v s).budget = s.budget := by simp [push16]
@[simp] theorem push16_frameCount (v : Word) : (push16 v s).frameCount = s.frameCount := by simp [push16]
@[simp] theorem push16_buttons (v : Word) : (push16 v s).buttons = s.buttons := by simp [push16]
@[simp] theorem push16_directions (v : Word) : (push16 v s).directions = s.directions := by simp [push16]
@[simp] theorem push16_fault (v : Word) : (push16 v s).fault = s.fault := by simp [push16]
@[simp] theorem push16_ticks (v : Word) : (push16 v s).ticks = s.ticks := by simp [push16]
@[simp] theorem push16_hostCalls (v : Word) : (push16 v s).hostCalls = s.hostCalls := by simp [push16]
@[simp] theorem push16_framesResult (v : Word) : (push16 v s).framesResult = s.framesResult := by simp [push16]
@[simp] theorem push16_imageResult (v : Word) : (push16 v s).imageResult = s.imageResult := by simp [push16]
@[simp] theorem push16_timerOwn (v : Word) : (push16 v s).timerOwn = s.timerOwn := by simp [push16]
@[simp] theorem push16_displayOwn (v : Word) : (push16 v s).displayOwn = s.displayOwn := by simp [push16]

theorem pushByte_wf {s : State} (h : Memory.wf s.mem) (v : Byte) : Memory.wf (pushByte v s).mem := memWrite_wf _ _ h

theorem push16_wf {s : State} (h : Memory.wf s.mem) (v : Word) : Memory.wf (push16 v s).mem :=
  pushByte_wf (pushByte_wf h _) _

theorem memRead_pushByte_other {a : Word} (v : Byte) (h : a ≠ s.regs.sp - 1) :
    memRead (pushByte v s) a = memRead s a := by
  rw [pushByte, memRead_memWrite_other _ _ h, memRead_setSp]

/-- A push changes the two bytes below SP and no other (20_memory.md R53). -/
theorem memRead_push16_other {a : Word} (v : Word) (h1 : a ≠ s.regs.sp - 1) (h2 : a ≠ s.regs.sp - 2) :
    memRead (push16 v s) a = memRead s a := by
  have h2' : a ≠ (pushByte (highByte v) s).regs.sp - 1 := by
    simp only [pushByte_regs]
    intro k
    exact h2 (by rw [k]; bv_omega)
  rw [push16, memRead_pushByte_other _ _ h2', memRead_pushByte_other _ _ h1]

/-! ### Interrupts -/

@[simp] theorem raiseWhen_params (up : Bool) (src : InterruptSource) : (raiseWhen up src s).params = s.params := rfl
@[simp] theorem raiseWhen_regs (up : Bool) (src : InterruptSource) : (raiseWhen up src s).regs = s.regs := rfl
@[simp] theorem raiseWhen_ime (up : Bool) (src : InterruptSource) : (raiseWhen up src s).ime = s.ime := rfl
@[simp] theorem raiseWhen_imePending (up : Bool) (src : InterruptSource) : (raiseWhen up src s).imePending = s.imePending := rfl
@[simp] theorem raiseWhen_halt (up : Bool) (src : InterruptSource) : (raiseWhen up src s).halt = s.halt := rfl
@[simp] theorem raiseWhen_stop (up : Bool) (src : InterruptSource) : (raiseWhen up src s).stop = s.stop := rfl
@[simp] theorem raiseWhen_intEnable (up : Bool) (src : InterruptSource) : (raiseWhen up src s).intEnable = s.intEnable := rfl
@[simp] theorem raiseWhen_speed (up : Bool) (src : InterruptSource) : (raiseWhen up src s).speed = s.speed := rfl
@[simp] theorem raiseWhen_switchPending (up : Bool) (src : InterruptSource) : (raiseWhen up src s).switchPending = s.switchPending := rfl
@[simp] theorem raiseWhen_totalTicks (up : Bool) (src : InterruptSource) : (raiseWhen up src s).totalTicks = s.totalTicks := rfl
@[simp] theorem raiseWhen_budget (up : Bool) (src : InterruptSource) : (raiseWhen up src s).budget = s.budget := rfl
@[simp] theorem raiseWhen_frameCount (up : Bool) (src : InterruptSource) : (raiseWhen up src s).frameCount = s.frameCount := rfl
@[simp] theorem raiseWhen_buttons (up : Bool) (src : InterruptSource) : (raiseWhen up src s).buttons = s.buttons := rfl
@[simp] theorem raiseWhen_directions (up : Bool) (src : InterruptSource) : (raiseWhen up src s).directions = s.directions := rfl
@[simp] theorem raiseWhen_select (up : Bool) (src : InterruptSource) : (raiseWhen up src s).select = s.select := rfl
@[simp] theorem raiseWhen_fault (up : Bool) (src : InterruptSource) : (raiseWhen up src s).fault = s.fault := rfl
@[simp] theorem raiseWhen_mem (up : Bool) (src : InterruptSource) : (raiseWhen up src s).mem = s.mem := rfl
@[simp] theorem raiseWhen_ticks (up : Bool) (src : InterruptSource) : (raiseWhen up src s).ticks = s.ticks := rfl
@[simp] theorem raiseWhen_hostCalls (up : Bool) (src : InterruptSource) : (raiseWhen up src s).hostCalls = s.hostCalls := rfl
@[simp] theorem raiseWhen_framesResult (up : Bool) (src : InterruptSource) : (raiseWhen up src s).framesResult = s.framesResult := rfl
@[simp] theorem raiseWhen_imageResult (up : Bool) (src : InterruptSource) : (raiseWhen up src s).imageResult = s.imageResult := rfl
@[simp] theorem raiseWhen_timerOwn (up : Bool) (src : InterruptSource) : (raiseWhen up src s).timerOwn = s.timerOwn := rfl
@[simp] theorem raiseWhen_displayOwn (up : Bool) (src : InterruptSource) : (raiseWhen up src s).displayOwn = s.displayOwn := rfl

@[simp] theorem wake_params : (wake s).params = s.params := rfl
@[simp] theorem wake_regs : (wake s).regs = s.regs := rfl
@[simp] theorem wake_ime : (wake s).ime = s.ime := rfl
@[simp] theorem wake_imePending : (wake s).imePending = s.imePending := rfl
@[simp] theorem wake_halt : (wake s).halt = false := rfl
@[simp] theorem wake_stop : (wake s).stop = false := rfl
@[simp] theorem wake_intFlag : (wake s).intFlag = s.intFlag := rfl
@[simp] theorem wake_intEnable : (wake s).intEnable = s.intEnable := rfl
@[simp] theorem wake_speed : (wake s).speed = s.speed := rfl
@[simp] theorem wake_switchPending : (wake s).switchPending = s.switchPending := rfl
@[simp] theorem wake_totalTicks : (wake s).totalTicks = s.totalTicks := rfl
@[simp] theorem wake_budget : (wake s).budget = s.budget := rfl
@[simp] theorem wake_frameCount : (wake s).frameCount = s.frameCount := rfl
@[simp] theorem wake_buttons : (wake s).buttons = s.buttons := rfl
@[simp] theorem wake_directions : (wake s).directions = s.directions := rfl
@[simp] theorem wake_select : (wake s).select = s.select := rfl
@[simp] theorem wake_fault : (wake s).fault = s.fault := rfl
@[simp] theorem wake_mem : (wake s).mem = s.mem := rfl
@[simp] theorem wake_ticks : (wake s).ticks = s.ticks := rfl
@[simp] theorem wake_hostCalls : (wake s).hostCalls = s.hostCalls := rfl
@[simp] theorem wake_framesResult : (wake s).framesResult = s.framesResult := rfl
@[simp] theorem wake_imageResult : (wake s).imageResult = s.imageResult := rfl
@[simp] theorem wake_timerOwn : (wake s).timerOwn = s.timerOwn := rfl
@[simp] theorem wake_displayOwn : (wake s).displayOwn = s.displayOwn := rfl

/-- Raising only sets bits of IF (60_exceptions.md R101). -/
theorem raiseWhen_getLsbD (up : Bool) (src : InterruptSource) (i : Nat) (h : s.intFlag.getLsbD i = true) :
    (raiseWhen up src s).intFlag.getLsbD i = true := by
  cases up <;> simp_all [raiseWhen, setBitAt]

@[simp] theorem dispatchInterrupt_params (src : InterruptSource) : (dispatchInterrupt src s).params = s.params := by
  simp [dispatchInterrupt]
@[simp] theorem dispatchInterrupt_regs (src : InterruptSource) :
    (dispatchInterrupt src s).regs = { s.regs with sp := s.regs.sp - 2, pc := interruptVector src } := by
  simp [dispatchInterrupt]
@[simp] theorem dispatchInterrupt_ime (src : InterruptSource) : (dispatchInterrupt src s).ime = false := by
  simp [dispatchInterrupt]
@[simp] theorem dispatchInterrupt_imePending (src : InterruptSource) : (dispatchInterrupt src s).imePending = s.imePending := by
  simp [dispatchInterrupt]
@[simp] theorem dispatchInterrupt_halt (src : InterruptSource) : (dispatchInterrupt src s).halt = false := by
  simp [dispatchInterrupt]
@[simp] theorem dispatchInterrupt_stop (src : InterruptSource) : (dispatchInterrupt src s).stop = false := by
  simp [dispatchInterrupt]
@[simp] theorem dispatchInterrupt_speed (src : InterruptSource) : (dispatchInterrupt src s).speed = s.speed := by
  simp [dispatchInterrupt]
@[simp] theorem dispatchInterrupt_totalTicks (src : InterruptSource) : (dispatchInterrupt src s).totalTicks = s.totalTicks := by
  simp [dispatchInterrupt]
@[simp] theorem dispatchInterrupt_budget (src : InterruptSource) : (dispatchInterrupt src s).budget = s.budget := by
  simp [dispatchInterrupt]
@[simp] theorem dispatchInterrupt_frameCount (src : InterruptSource) : (dispatchInterrupt src s).frameCount = s.frameCount := by
  simp [dispatchInterrupt]
@[simp] theorem dispatchInterrupt_buttons (src : InterruptSource) : (dispatchInterrupt src s).buttons = s.buttons := by
  simp [dispatchInterrupt]
@[simp] theorem dispatchInterrupt_directions (src : InterruptSource) : (dispatchInterrupt src s).directions = s.directions := by
  simp [dispatchInterrupt]
@[simp] theorem dispatchInterrupt_fault (src : InterruptSource) : (dispatchInterrupt src s).fault = s.fault := by
  simp [dispatchInterrupt]
@[simp] theorem dispatchInterrupt_ticks (src : InterruptSource) : (dispatchInterrupt src s).ticks = s.ticks + 1 := by
  simp [dispatchInterrupt]
@[simp] theorem dispatchInterrupt_hostCalls (src : InterruptSource) : (dispatchInterrupt src s).hostCalls = s.hostCalls := by
  simp [dispatchInterrupt]
@[simp] theorem dispatchInterrupt_framesResult (src : InterruptSource) : (dispatchInterrupt src s).framesResult = s.framesResult := by
  simp [dispatchInterrupt]
@[simp] theorem dispatchInterrupt_imageResult (src : InterruptSource) : (dispatchInterrupt src s).imageResult = s.imageResult := by
  simp [dispatchInterrupt]
@[simp] theorem dispatchInterrupt_timerOwn (src : InterruptSource) : (dispatchInterrupt src s).timerOwn = s.timerOwn := by
  simp [dispatchInterrupt]
@[simp] theorem dispatchInterrupt_displayOwn (src : InterruptSource) : (dispatchInterrupt src s).displayOwn = s.displayOwn := by
  simp [dispatchInterrupt]

theorem dispatchInterrupt_wf {s : State} (h : Memory.wf s.mem) (src : InterruptSource) :
    Memory.wf (dispatchInterrupt src s).mem := push16_wf (s := ((wake s).setIntFlag _).setIme false) h _

/-- Every index the encoder can select below 5 has a source, and none at or above 5 has (30_encoding.md R61). -/
theorem interruptSourceAt_eq_some {i : Nat} {src : InterruptSource} :
    interruptSourceAt i = some src ↔ i = interruptBit src := by
  rcases i with _ | _ | _ | _ | _ | i <;> cases src <;> simp [interruptSourceAt, interruptBit]

theorem interruptSourceAt_eq_none {i : Nat} : interruptSourceAt i = none ↔ 5 ≤ i := by
  rcases i with _ | _ | _ | _ | _ | i <;> simp [interruptSourceAt]

/-- The priority encoder: the selected bit is set and every lower bit is clear (60_exceptions.md R106). -/
theorem lowestSet_eq_some {v : Byte} {i : Nat} :
    lowestSet v = some i ↔ i < 8 ∧ v.getLsbD i = true ∧ ∀ j < i, v.getLsbD j = false := by
  simp only [lowestSet, List.find?_range_eq_some, List.mem_range, Bool.not_eq_true']
  tauto

theorem lowestSet_eq_none {v : Byte} : lowestSet v = none ↔ v = 0 := by
  revert v
  decide

end Sys2Proof.Machine
end

