-- ==== Sys2Proof/Laws/Executor.lean ====
section
/-! SUPPORT. What an instruction can change: the executor's contract (41_executor_contract.md R74, R75), the canonical
form of the byte store and F[3:0] (10_state.md R17). -/

namespace Sys2Proof.Machine

/-- `t` agrees with `s` in every field that no instruction writes. -/
structure SameOutsideExec (s t : State) : Prop where
  params : t.params = s.params
  speed : t.speed = s.speed
  totalTicks : t.totalTicks = s.totalTicks
  budget : t.budget = s.budget
  frameCount : t.frameCount = s.frameCount
  buttons : t.buttons = s.buttons
  directions : t.directions = s.directions
  fault : t.fault = s.fault
  hostCalls : t.hostCalls = s.hostCalls
  framesResult : t.framesResult = s.framesResult
  imageResult : t.imageResult = s.imageResult
  timerOwn : t.timerOwn = s.timerOwn
  displayOwn : t.displayOwn = s.displayOwn

/-- `t` agrees with `s` in the control fields that a delegated opcode never writes (41_executor_contract.md R75). -/
structure SameControl (s t : State) : Prop where
  imePending : t.imePending = s.imePending
  halt : t.halt = s.halt
  stop : t.stop = s.stop

theorem SameOutsideExec.rfl' {s : State} : SameOutsideExec s s := by constructor <;> rfl

theorem SameOutsideExec.trans {s t u : State} (h : SameOutsideExec s t) (k : SameOutsideExec t u) :
    SameOutsideExec s u := by
  constructor
  · exact k.params.trans h.params
  · exact k.speed.trans h.speed
  · exact k.totalTicks.trans h.totalTicks
  · exact k.budget.trans h.budget
  · exact k.frameCount.trans h.frameCount
  · exact k.buttons.trans h.buttons
  · exact k.directions.trans h.directions
  · exact k.fault.trans h.fault
  · exact k.hostCalls.trans h.hostCalls
  · exact k.framesResult.trans h.framesResult
  · exact k.imageResult.trans h.imageResult
  · exact k.timerOwn.trans h.timerOwn
  · exact k.displayOwn.trans h.displayOwn

theorem SameControl.rfl' {s : State} : SameControl s s := by constructor <;> rfl

theorem SameControl.trans {s t u : State} (h : SameControl s t) (k : SameControl t u) : SameControl s u :=
  ⟨k.imePending.trans h.imePending, k.halt.trans h.halt, k.stop.trans h.stop⟩

/-! ### Register writes -/

theorem writeReg8_eq (s : State) (r : Reg8) (v : Byte) : ∃ x, s.writeReg8 r v = s.setRegs x := by
  cases r <;> exact ⟨_, rfl⟩

theorem writeReg16_eq (s : State) (rr : Reg16) (v : Word) : ∃ x, s.writeReg16 rr v = s.setRegs x := by
  obtain ⟨x, hx⟩ := writeReg8_eq s (Reg16High rr) (highByte v)
  obtain ⟨y, hy⟩ := writeReg8_eq (s.writeReg8 (Reg16High rr) (highByte v)) (Reg16Low rr) (lowByte v)
  exact ⟨y, by rw [State.writeReg16, hy, hx]; rfl⟩

theorem flagBits_low (v : Byte) : flagBits v &&& 0x0F = 0 := by
  rw [flagBits, BitVec.and_assoc]
  simp

theorem writeReg8_flags {s : State} (h : s.regs.f &&& 0x0F = 0) (r : Reg8) (v : Byte) :
    (s.writeReg8 r v).regs.f &&& 0x0F = 0 := by
  cases r
  case f => exact flagBits_low v
  all_goals exact h

theorem writeReg16_flags {s : State} (h : s.regs.f &&& 0x0F = 0) (rr : Reg16) (v : Word) :
    (s.writeReg16 rr v).regs.f &&& 0x0F = 0 := writeReg8_flags (writeReg8_flags h _ _) _ _

/-! ### The executor -/

theorem SameOutsideExec.setRegs {s : State} {x : Regs} : SameOutsideExec s (s.setRegs x) := by constructor <;> rfl

theorem SameControl.setRegs {s : State} {x : Regs} : SameControl s (s.setRegs x) := by constructor <;> rfl

theorem SameOutsideExec.memWrite (s : State) (a : Word) (v : Byte) : SameOutsideExec s (memWrite s a v) := by
  constructor <;> simp

theorem SameControl.memWrite (s : State) (a : Word) (v : Byte) : SameControl s (memWrite s a v) := by
  constructor <;> simp

variable {op last : Byte} {tree : ExecTree} {s t : State}

/-- What a register write, an IME write and a store outside `bad` keep, a run that stores nothing in `bad` keeps. -/
theorem runExecTree_keeps {P : State → Prop} {bad : Word → Prop} (hregs : ∀ s x, P s → P (s.setRegs x))
    (hime : ∀ s v, P s → P (s.setIme v)) (hticks : ∀ s c, P s → P (s.setTicks c))
    (hstore : ∀ s a v, ¬bad a → P s → P (memWrite s a v)) (h : runExecTree op tree last s = .next t)
    (ha : ∀ a ∈ storedAddresses tree last s, ¬bad a) (hs : P s) : P t := by
  induction tree generalizing last s with
  | done cost => cases h; exact hticks _ _ hs
  | fault => cases h
  | testBit src i k m ihk ihm =>
    rw [runExecTree] at h
    rw [storedAddresses] at ha
    split at h
    · rename_i hb; rw [if_pos hb] at ha; exact ihk h ha hs
    · rename_i hb; rw [if_neg hb] at ha; exact ihm h ha hs
  | writeReg8 r v k ih =>
    obtain ⟨x, hx⟩ := writeReg8_eq s r v
    exact ih h ha (by rw [hx]; exact hregs _ _ hs)
  | writeReg16 rr v k ih =>
    obtain ⟨x, hx⟩ := writeReg16_eq s rr v
    exact ih h ha (by rw [hx]; exact hregs _ _ hs)
  | writeSp v k ih => exact ih h ha (hregs _ _ hs)
  | writePc v k ih => exact ih h ha (hregs _ _ hs)
  | writeIme v k ih => exact ih h ha (hime _ _ hs)
  | memRead a k ih => exact ih h ha hs
  | memWrite a v k ih =>
    rw [storedAddresses, List.forall_mem_cons] at ha
    exact ih h ha.2 (hstore _ _ _ ha.1 hs)
  | fetchByte k ih => exact ih h ha (hregs _ _ hs)

/-- The executor never writes what the contract keeps from it (41_executor_contract.md R74, R75). -/
theorem runExecTree_same (h : runExecTree op tree last s = .next t) : SameOutsideExec s t ∧ SameControl s t :=
  runExecTree_keeps (P := fun u => SameOutsideExec s u ∧ SameControl s u) (bad := fun _ => False)
    (fun _ _ k => ⟨k.1.trans .setRegs, k.2.trans .setRegs⟩)
    (fun u v k => ⟨k.1.trans (u := u.setIme v) (by constructor <;> rfl),
      k.2.trans (u := u.setIme v) (by constructor <;> rfl)⟩)
    (fun u c k => ⟨k.1.trans (u := u.setTicks c) (by constructor <;> rfl),
      k.2.trans (u := u.setTicks c) (by constructor <;> rfl)⟩)
    (fun u a v _ k => ⟨k.1.trans (.memWrite u a v), k.2.trans (.memWrite u a v)⟩)
    h (fun _ _ => not_false) ⟨.rfl', .rfl'⟩

/-- The executor keeps the canonical form of the byte store. -/
theorem runExecTree_wf (h : runExecTree op tree last s = .next t) (hm : Memory.wf s.mem) : Memory.wf t.mem :=
  runExecTree_keeps (P := fun u => Memory.wf u.mem) (bad := fun _ => False) (fun _ _ k => k) (fun _ _ k => k)
    (fun _ _ k => k) (fun _ a v _ k => memWrite_wf a v k) h (fun _ _ => not_false) hm

/-- Every byte the executor does not store to reads as before. -/
theorem memRead_runExecTree (h : runExecTree op tree last s = .next t) {a : Word}
    (ha : a ∉ storedAddresses tree last s) : memRead t a = memRead s a :=
  runExecTree_keeps (P := fun u => memRead u a = memRead s a) (bad := fun b => a = b) (fun _ _ k => k) (fun _ _ k => k)
    (fun _ _ k => k) (fun u _ v hb k => (memRead_memWrite_other u v hb).trans k) h
    (fun _ hb e => ha (e ▸ hb)) rfl

/-- A run that stores nothing to the joypad register leaves the column. -/
theorem runExecTree_select (h : runExecTree op tree last s = .next t) (ha : 0xFF00 ∉ storedAddresses tree last s) :
    t.select = s.select :=
  runExecTree_keeps (P := fun u => u.select = s.select) (bad := fun b => b = 0xFF00) (fun _ _ k => k) (fun _ _ k => k)
    (fun _ _ k => k) (fun u b v hb k => by rw [memWrite_select, if_neg hb, k]) h (fun _ hb e => ha (e ▸ hb)) rfl

/-- A run that stores nothing to KEY1 leaves the pending switch. -/
theorem runExecTree_switchPending (h : runExecTree op tree last s = .next t)
    (ha : 0xFF4D ∉ storedAddresses tree last s) : t.switchPending = s.switchPending :=
  runExecTree_keeps (P := fun u => u.switchPending = s.switchPending) (bad := fun b => b = 0xFF4D) (fun _ _ k => k)
    (fun _ _ k => k) (fun _ _ k => k)
    (fun u b v hb k => by rw [memWrite_switchPending, if_neg (fun e => hb e.1), k]) h (fun _ hb e => ha (e ▸ hb)) rfl

/-- The executor keeps F[3:0] zero (10_state.md R17). -/
theorem runExecTree_flags (h : runExecTree op tree last s = .next t) (hf : s.regs.f &&& 0x0F = 0) :
    t.regs.f &&& 0x0F = 0 := by
  induction tree generalizing last s with
  | done cost => cases h; exact hf
  | fault => cases h
  | testBit src i k m ihk ihm =>
    rw [runExecTree] at h
    split at h
    · exact ihk h hf
    · exact ihm h hf
  | writeReg8 r v k ih => exact ih h (writeReg8_flags hf r v)
  | writeReg16 rr v k ih => exact ih h (writeReg16_flags hf rr v)
  | writeSp v k ih => exact ih h hf
  | writePc v k ih => exact ih h hf
  | writeIme v k ih => exact ih h hf
  | memRead a k ih => exact ih h hf
  | memWrite a v k ih => exact ih h (by simpa using hf)
  | fetchByte k ih => exact ih h hf

/-- The executor answers a next state or the fault of its opcode byte (41_executor_contract.md R73, R77). -/
theorem runExecTree_outcome (op : Byte) (tree : ExecTree) (last : Byte) (s : State) :
    (∃ t, runExecTree op tree last s = .next t) ∨ runExecTree op tree last s = .fault (.undefinedOpcode op) := by
  induction tree generalizing last s with
  | done cost => exact .inl ⟨_, rfl⟩
  | fault => exact .inr rfl
  | testBit src i k m ihk ihm =>
    rw [runExecTree]
    split
    · exact ihk last s
    · exact ihm last s
  | writeReg8 r v k ih => exact ih last _
  | writeReg16 rr v k ih => exact ih last _
  | writeSp v k ih => exact ih last _
  | writePc v k ih => exact ih last _
  | writeIme v k ih => exact ih last _
  | memRead a k ih => exact ih _ s
  | memWrite a v k ih => exact ih last _
  | fetchByte k ih => exact ih _ _

/-- An executor that implements the operation completes in every state. -/
theorem runExecTree_faultless (h : faultless tree = true) (op last : Byte) (s : State) :
    ∃ t, runExecTree op tree last s = .next t := by
  induction tree generalizing last s with
  | done cost => exact ⟨_, rfl⟩
  | fault => cases h
  | testBit src i k m ihk ihm =>
    rw [faultless, Bool.and_eq_true] at h
    rw [runExecTree]
    split
    · exact ihk h.1 last s
    · exact ihm h.2 last s
  | writeReg8 r v k ih => exact ih h last _
  | writeReg16 rr v k ih => exact ih h last _
  | writeSp v k ih => exact ih h last _
  | writePc v k ih => exact ih h last _
  | writeIme v k ih => exact ih h last _
  | memRead a k ih => exact ih h _ s
  | memWrite a v k ih => exact ih h last _
  | fetchByte k ih => exact ih h _ _

/-! ### A delegated opcode -/

/-- Entering the executor moves PC at most. -/
theorem enterExecutor_eq (op : Byte) (s : State) : ∃ v, enterExecutor op s = s.setPc v := by
  rw [enterExecutor]
  split
  · exact ⟨_, rfl⟩
  · exact ⟨s.pc, rfl⟩

theorem execDelegated_same (h : execDelegated op s = .next t) : SameOutsideExec s t ∧ SameControl s t := by
  obtain ⟨v, hv⟩ := enterExecutor_eq op s
  rw [execDelegated, hv] at h
  exact ⟨.trans .setRegs (runExecTree_same h).1, .trans .setRegs (runExecTree_same h).2⟩

theorem execDelegated_sound (h : execDelegated op s = .next t) (hm : Memory.wf s.mem) (hf : s.regs.f &&& 0x0F = 0) :
    Memory.wf t.mem ∧ t.regs.f &&& 0x0F = 0 := by
  obtain ⟨v, hv⟩ := enterExecutor_eq op s
  rw [execDelegated, hv] at h
  exact ⟨runExecTree_wf h hm, runExecTree_flags h hf⟩

theorem memRead_execDelegated (h : execDelegated op s = .next t) {a : Word}
    (ha : a ∉ storedAddresses (delegatedTree op s) (entryByte op s) (enterExecutor op s)) :
    memRead t a = memRead s a := by
  obtain ⟨v, hv⟩ := enterExecutor_eq op s
  have k := memRead_runExecTree h ha
  rw [hv] at k
  exact k

/-! ### Every instruction -/

/-- An instruction that answers a next state leaves every field outside the executor's reach. -/
theorem exec_next_same {i : Instr} (h : exec i s = .next t) : SameOutsideExec s t := by
  cases i
  case delegated op => exact (execDelegated_same h).1
  all_goals cases h
  all_goals constructor <;> rfl

/-- An instruction that answers a next state keeps the byte store's form and F[3:0]. -/
theorem exec_next_sound {i : Instr} (h : exec i s = .next t) (hm : Memory.wf s.mem)
    (hf : s.regs.f &&& 0x0F = 0) : Memory.wf t.mem ∧ t.regs.f &&& 0x0F = 0 := by
  cases i
  case delegated op => exact execDelegated_sound h hm hf
  all_goals cases h
  all_goals exact ⟨hm, hf⟩

/-- From Running, an instruction sets at most one of `cpu.halt` and `cpu.stop` (40_cpu_state_machine.md R66). -/
theorem exec_next_mode {i : Instr} (h : exec i s = .next t) (hh : s.halt = false)
    (hs : s.stop = false) : ¬(t.halt = true ∧ t.stop = true) := by
  cases i
  case delegated op =>
    rw [(execDelegated_same h).2.halt, hh]
    simp
  all_goals cases h
  all_goals simp [skipStopByte, returnFromInterrupt, hh, hs]

/-- No instruction is refused: it answers a next state or a fault. -/
theorem exec_not_refused (i : Instr) (s : State) (r : Refusal) : exec i s ≠ .refused r := by
  intro h
  cases i
  case delegated op =>
    rcases runExecTree_outcome op (delegatedTree op s) (entryByte op s) (enterExecutor op s) with ⟨t, ht⟩ | ht
    · exact absurd (ht.symm.trans h) (by simp)
    · exact absurd (ht.symm.trans h) (by simp)
  all_goals cases h

end Sys2Proof.Machine
end

