-- ==== Sys2Proof/Laws/Driver.lean ====
section
/-! SUPPORT. What each part of the driver step, a pass of the frame loop and a step of the block can do, said once
(42_driver_step.md, 43_frame_scheduler.md). -/

namespace Sys2Proof.Machine

variable {s t : State}

/-- The controller leaves the state, wakes a halted CPU, or takes one interrupt (60_exceptions.md R105). -/
theorem interruptController_next (h : interruptController s = .next t) :
    (t = s ∧ (s.ime = false ∧ s.halt = false ∨ s.intFlag &&& s.intEnable = 0)) ∨
    (∃ src, lowestSet (s.intFlag &&& s.intEnable) = some (interruptBit src) ∧
      (s.ime = true ∧ t = dispatchInterrupt src s ∨ s.ime = false ∧ s.halt = true ∧ t = wake s)) := by
  simp only [interruptController] at h
  split at h
  · rename_i hg
    split at h
    · rename_i hl
      cases h
      exact .inl ⟨rfl, .inr (lowestSet_eq_none.1 hl)⟩
    · rename_i i hl
      split at h
      · cases h
      · rename_i src hsrc
        rw [interruptSourceAt_eq_some] at hsrc
        subst hsrc
        cases h
        refine .inr ⟨src, hl, ?_⟩
        cases hi : s.ime <;> simp_all
  · cases h
    refine .inl ⟨rfl, .inl ?_⟩
    simp_all

/-- Part 2 runs an instruction from Running, switches the speed, or charges an idle cycle. -/
theorem partTwo_next (h : partTwo s = .next t) :
    (Running s ∧ exec (decodeOpcode (memRead s s.regs.pc)) (s.setPc (s.regs.pc + 1)) = .next t ∧ t.ticks ≠ 0) ∨
    (¬Running s ∧ mustSwitch s = true ∧ t = switchSpeed s) ∨
    (¬Running s ∧ mustSwitch s = false ∧ t = s.setTicks 1) := by
  unfold partTwo at h
  by_cases hr : Running s
  · rw [if_pos (by simp [isRunning, hr.1, hr.2])] at h
    obtain ⟨u, hu, hk⟩ := bindNext_eq_next.1 h
    split at hk
    · cases hk
    · cases hk
      exact .inl ⟨hr, hu, ‹_›⟩
  · rw [if_neg (by simpa [isRunning] using hr)] at h
    by_cases hm : mustSwitch s = true
    · rw [if_pos hm] at h
      cases h
      exact .inr (.inl ⟨hr, hm, rfl⟩)
    · rw [if_neg hm] at h
      cases h
      exact .inr (.inr ⟨hr, by simpa using hm, rfl⟩)

/-- A driver step is part 2 after the latch, the controller, the scaling and the counter. -/
theorem driverStep_next (h : driverStep s = .next t) :
    s.fault = none ∧ ∃ u v, partTwo (resolveLatch s) = .next u ∧ interruptController u = .next v ∧
      t = countTicks (scaleTicks v) := by
  simp only [driverStep, whileSound] at h
  split at h
  · cases h
  · obtain ⟨u, hu, hk⟩ := bindNext_eq_next.1 h
    obtain ⟨v, hv, hk⟩ := bindNext_eq_next.1 hk
    cases hk
    exact ⟨‹_›, u, v, hu, hv, rfl⟩

/-- A pass of the frame loop is a driver step, the peripherals and the budget. -/
theorem frameIteration_next (h : frameIteration s = .next t) :
    ∃ u, driverStep s = .next u ∧ t = finishIfSpent (chargeBudget (displayStep (timerStep u))) := by
  obtain ⟨u, hu, hk⟩ := bindNext_eq_next.1 h
  cases hk
  exact ⟨u, hu, rfl⟩

/-- A step of the block is a pass of the frame loop or a host call. -/
theorem step_next (h : step s = .next t) :
    s.fault = none ∧ (0 < s.budget ∧ frameIteration s = .next t ∨ s.budget ≤ 0 ∧ t = hostTurn s) := by
  simp only [step, whileSound] at h
  split at h
  · cases h
  · refine ⟨‹_›, ?_⟩
    split at h
    · exact .inl ⟨‹_›, h⟩
    · cases h
      exact .inr ⟨by omega, rfl⟩

/-! ### When each part does what -/

/-- Nothing pending and enabled: the controller leaves the state. -/
theorem interruptController_idle (h : s.intFlag &&& s.intEnable = 0) : interruptController s = .next s := by
  have k : lowestSet (s.intFlag &&& s.intEnable) = none := lowestSet_eq_none.2 h
  simp only [interruptController, k]
  split <;> rfl

/-- IME = 0 and not halted: the controller leaves the state (60_exceptions.md R104). -/
theorem interruptController_off (hi : s.ime = false) (hh : s.halt = false) : interruptController s = .next s := by
  simp [interruptController, hi, hh]

/-- IME = 1 and a source selected: the controller takes it (60_exceptions.md R108). -/
theorem interruptController_takes {src : InterruptSource} (hi : s.ime = true)
    (hl : lowestSet (s.intFlag &&& s.intEnable) = some (interruptBit src)) :
    interruptController s = .next (dispatchInterrupt src s) := by
  have k : interruptSourceAt (interruptBit src) = some src := interruptSourceAt_eq_some.2 rfl
  simp [interruptController, hi, hl, k]

/-- IME = 0, halted, and a source selected: the controller only wakes the CPU (60_exceptions.md R109). -/
theorem interruptController_wakes {src : InterruptSource} (hi : s.ime = false) (hh : s.halt = true)
    (hl : lowestSet (s.intFlag &&& s.intEnable) = some (interruptBit src)) :
    interruptController s = .next (wake s) := by
  have k : interruptSourceAt (interruptBit src) = some src := interruptSourceAt_eq_some.2 rfl
  simp [interruptController, hi, hh, hl, k]

/-- The resolved latch as one update of the state (42_driver_step.md R82). -/
theorem resolveLatch_eq (s : State) :
    resolveLatch s = { s with ime := s.ime || s.imePending, imePending := false } := by
  unfold resolveLatch
  split
  · rename_i h
    simp [State.setIme, State.setImePending, h]
  · rename_i h
    cases s
    simp_all

/-- The latch is no part of what the bus reads. -/
@[simp] theorem memRead_resolveLatch (s : State) (a : Word) : memRead (resolveLatch s) a = memRead s a := by
  unfold resolveLatch
  split <;> rfl

/-- Part 2 from Running (42_driver_step.md R83). -/
theorem partTwo_running (h : Running s) : partTwo s = runInstruction s := by
  unfold partTwo
  rw [if_pos (by simp [isRunning, h.1, h.2])]

/-- Part 2 with a legal switch pending (42_driver_step.md R84). -/
theorem partTwo_switch (h : ¬Running s) (hm : mustSwitch s = true) : partTwo s = .next (switchSpeed s) := by
  unfold partTwo
  rw [if_neg (by simpa [isRunning] using h), if_pos hm]

/-- Part 2 otherwise (42_driver_step.md R85). -/
theorem partTwo_idle (h : ¬Running s) (hm : mustSwitch s = false) : partTwo s = .next (s.setTicks 1) := by
  unfold partTwo
  rw [if_neg (by simpa [isRunning] using h), if_neg (by simp [hm])]

/-- A driver step of a fault-free state: part 2 after the latch, then what follows it. -/
theorem driverStep_eq (hf : s.fault = none) :
    driverStep s = bindNext (partTwo (resolveLatch s)) fun t =>
      bindNext (interruptController t) fun u => .next (countTicks (scaleTicks u)) := by
  simp only [driverStep, whileSound, hf]

/-- The instruction a driver step runs from Running: decoded at PC, with PC past its byte and the latch resolved. -/
theorem runInstruction_resolveLatch (s : State) :
    runInstruction (resolveLatch s) =
      bindNext (exec (decodeOpcode (memRead s s.regs.pc)) ((resolveLatch s).setPc (s.regs.pc + 1))) fun t =>
        if t.ticks = 0 then .fault (.zeroCostStep (memRead s s.regs.pc)) else .next t := by
  simp only [runInstruction, fetchByte_fst, fetchByte_snd, memRead_resolveLatch]
  rw [show (resolveLatch s).regs = s.regs by unfold resolveLatch; split <;> rfl]

/-! ### The latch, the switch and the end of a step, field by field -/

@[simp] theorem resolveLatch_params (s : State) : (resolveLatch s).params = s.params := by
  unfold resolveLatch; split <;> rfl
@[simp] theorem resolveLatch_regs (s : State) : (resolveLatch s).regs = s.regs := by
  unfold resolveLatch; split <;> rfl
@[simp] theorem resolveLatch_ime (s : State) : (resolveLatch s).ime = (s.ime || s.imePending) := by
  unfold resolveLatch; split <;> simp_all
@[simp] theorem resolveLatch_imePending (s : State) : (resolveLatch s).imePending = false := by
  unfold resolveLatch; split <;> simp_all
@[simp] theorem resolveLatch_halt (s : State) : (resolveLatch s).halt = s.halt := by
  unfold resolveLatch; split <;> rfl
@[simp] theorem resolveLatch_stop (s : State) : (resolveLatch s).stop = s.stop := by
  unfold resolveLatch; split <;> rfl
@[simp] theorem resolveLatch_intFlag (s : State) : (resolveLatch s).intFlag = s.intFlag := by
  unfold resolveLatch; split <;> rfl
@[simp] theorem resolveLatch_intEnable (s : State) : (resolveLatch s).intEnable = s.intEnable := by
  unfold resolveLatch; split <;> rfl
@[simp] theorem resolveLatch_speed (s : State) : (resolveLatch s).speed = s.speed := by
  unfold resolveLatch; split <;> rfl
@[simp] theorem resolveLatch_switchPending (s : State) : (resolveLatch s).switchPending = s.switchPending := by
  unfold resolveLatch; split <;> rfl
@[simp] theorem resolveLatch_totalTicks (s : State) : (resolveLatch s).totalTicks = s.totalTicks := by
  unfold resolveLatch; split <;> rfl
@[simp] theorem resolveLatch_budget (s : State) : (resolveLatch s).budget = s.budget := by
  unfold resolveLatch; split <;> rfl
@[simp] theorem resolveLatch_frameCount (s : State) : (resolveLatch s).frameCount = s.frameCount := by
  unfold resolveLatch; split <;> rfl
@[simp] theorem resolveLatch_buttons (s : State) : (resolveLatch s).buttons = s.buttons := by
  unfold resolveLatch; split <;> rfl
@[simp] theorem resolveLatch_directions (s : State) : (resolveLatch s).directions = s.directions := by
  unfold resolveLatch; split <;> rfl
@[simp] theorem resolveLatch_select (s : State) : (resolveLatch s).select = s.select := by
  unfold resolveLatch; split <;> rfl
@[simp] theorem resolveLatch_fault (s : State) : (resolveLatch s).fault = s.fault := by
  unfold resolveLatch; split <;> rfl
@[simp] theorem resolveLatch_mem (s : State) : (resolveLatch s).mem = s.mem := by
  unfold resolveLatch; split <;> rfl
@[simp] theorem resolveLatch_ticks (s : State) : (resolveLatch s).ticks = s.ticks := by
  unfold resolveLatch; split <;> rfl
@[simp] theorem resolveLatch_hostCalls (s : State) : (resolveLatch s).hostCalls = s.hostCalls := by
  unfold resolveLatch; split <;> rfl
@[simp] theorem resolveLatch_framesResult (s : State) : (resolveLatch s).framesResult = s.framesResult := by
  unfold resolveLatch; split <;> rfl
@[simp] theorem resolveLatch_imageResult (s : State) : (resolveLatch s).imageResult = s.imageResult := by
  unfold resolveLatch; split <;> rfl
@[simp] theorem resolveLatch_timerOwn (s : State) : (resolveLatch s).timerOwn = s.timerOwn := by
  unfold resolveLatch; split <;> rfl
@[simp] theorem resolveLatch_displayOwn (s : State) : (resolveLatch s).displayOwn = s.displayOwn := by
  unfold resolveLatch; split <;> rfl

@[simp] theorem switchSpeed_params (s : State) : (switchSpeed s).params = s.params := rfl
@[simp] theorem switchSpeed_regs (s : State) : (switchSpeed s).regs = s.regs := rfl
@[simp] theorem switchSpeed_ime (s : State) : (switchSpeed s).ime = s.ime := rfl
@[simp] theorem switchSpeed_imePending (s : State) : (switchSpeed s).imePending = s.imePending := rfl
@[simp] theorem switchSpeed_halt (s : State) : (switchSpeed s).halt = s.halt := rfl
@[simp] theorem switchSpeed_stop (s : State) : (switchSpeed s).stop = false := rfl
@[simp] theorem switchSpeed_intFlag (s : State) : (switchSpeed s).intFlag = s.intFlag := rfl
@[simp] theorem switchSpeed_intEnable (s : State) : (switchSpeed s).intEnable = s.intEnable := rfl
@[simp] theorem switchSpeed_speed (s : State) : (switchSpeed s).speed = flipSpeed s.speed := rfl
@[simp] theorem switchSpeed_switchPending (s : State) : (switchSpeed s).switchPending = false := rfl
@[simp] theorem switchSpeed_totalTicks (s : State) : (switchSpeed s).totalTicks = s.totalTicks := rfl
@[simp] theorem switchSpeed_budget (s : State) : (switchSpeed s).budget = s.budget := rfl
@[simp] theorem switchSpeed_frameCount (s : State) : (switchSpeed s).frameCount = s.frameCount := rfl
@[simp] theorem switchSpeed_buttons (s : State) : (switchSpeed s).buttons = s.buttons := rfl
@[simp] theorem switchSpeed_directions (s : State) : (switchSpeed s).directions = s.directions := rfl
@[simp] theorem switchSpeed_select (s : State) : (switchSpeed s).select = s.select := rfl
@[simp] theorem switchSpeed_fault (s : State) : (switchSpeed s).fault = s.fault := rfl
@[simp] theorem switchSpeed_mem (s : State) : (switchSpeed s).mem = s.mem := rfl
@[simp] theorem switchSpeed_ticks (s : State) : (switchSpeed s).ticks = 1 := rfl
@[simp] theorem switchSpeed_hostCalls (s : State) : (switchSpeed s).hostCalls = s.hostCalls := rfl
@[simp] theorem switchSpeed_framesResult (s : State) : (switchSpeed s).framesResult = s.framesResult := rfl
@[simp] theorem switchSpeed_imageResult (s : State) : (switchSpeed s).imageResult = s.imageResult := rfl
@[simp] theorem switchSpeed_timerOwn (s : State) : (switchSpeed s).timerOwn = s.timerOwn := rfl
@[simp] theorem switchSpeed_displayOwn (s : State) : (switchSpeed s).displayOwn = s.displayOwn := rfl

@[simp] theorem scaleTicks_params (s : State) : (scaleTicks s).params = s.params := rfl
@[simp] theorem scaleTicks_regs (s : State) : (scaleTicks s).regs = s.regs := rfl
@[simp] theorem scaleTicks_ime (s : State) : (scaleTicks s).ime = s.ime := rfl
@[simp] theorem scaleTicks_imePending (s : State) : (scaleTicks s).imePending = s.imePending := rfl
@[simp] theorem scaleTicks_halt (s : State) : (scaleTicks s).halt = s.halt := rfl
@[simp] theorem scaleTicks_stop (s : State) : (scaleTicks s).stop = s.stop := rfl
@[simp] theorem scaleTicks_intFlag (s : State) : (scaleTicks s).intFlag = s.intFlag := rfl
@[simp] theorem scaleTicks_intEnable (s : State) : (scaleTicks s).intEnable = s.intEnable := rfl
@[simp] theorem scaleTicks_speed (s : State) : (scaleTicks s).speed = s.speed := rfl
@[simp] theorem scaleTicks_switchPending (s : State) : (scaleTicks s).switchPending = s.switchPending := rfl
@[simp] theorem scaleTicks_totalTicks (s : State) : (scaleTicks s).totalTicks = s.totalTicks := rfl
@[simp] theorem scaleTicks_budget (s : State) : (scaleTicks s).budget = s.budget := rfl
@[simp] theorem scaleTicks_frameCount (s : State) : (scaleTicks s).frameCount = s.frameCount := rfl
@[simp] theorem scaleTicks_buttons (s : State) : (scaleTicks s).buttons = s.buttons := rfl
@[simp] theorem scaleTicks_directions (s : State) : (scaleTicks s).directions = s.directions := rfl
@[simp] theorem scaleTicks_select (s : State) : (scaleTicks s).select = s.select := rfl
@[simp] theorem scaleTicks_fault (s : State) : (scaleTicks s).fault = s.fault := rfl
@[simp] theorem scaleTicks_mem (s : State) : (scaleTicks s).mem = s.mem := rfl
@[simp] theorem scaleTicks_ticks (s : State) : (scaleTicks s).ticks = s.ticks * speedMultiplier s.speed := rfl
@[simp] theorem scaleTicks_hostCalls (s : State) : (scaleTicks s).hostCalls = s.hostCalls := rfl
@[simp] theorem scaleTicks_framesResult (s : State) : (scaleTicks s).framesResult = s.framesResult := rfl
@[simp] theorem scaleTicks_imageResult (s : State) : (scaleTicks s).imageResult = s.imageResult := rfl
@[simp] theorem scaleTicks_timerOwn (s : State) : (scaleTicks s).timerOwn = s.timerOwn := rfl
@[simp] theorem scaleTicks_displayOwn (s : State) : (scaleTicks s).displayOwn = s.displayOwn := rfl

@[simp] theorem countTicks_params (s : State) : (countTicks s).params = s.params := rfl
@[simp] theorem countTicks_regs (s : State) : (countTicks s).regs = s.regs := rfl
@[simp] theorem countTicks_ime (s : State) : (countTicks s).ime = s.ime := rfl
@[simp] theorem countTicks_imePending (s : State) : (countTicks s).imePending = s.imePending := rfl
@[simp] theorem countTicks_halt (s : State) : (countTicks s).halt = s.halt := rfl
@[simp] theorem countTicks_stop (s : State) : (countTicks s).stop = s.stop := rfl
@[simp] theorem countTicks_intFlag (s : State) : (countTicks s).intFlag = s.intFlag := rfl
@[simp] theorem countTicks_intEnable (s : State) : (countTicks s).intEnable = s.intEnable := rfl
@[simp] theorem countTicks_speed (s : State) : (countTicks s).speed = s.speed := rfl
@[simp] theorem countTicks_switchPending (s : State) : (countTicks s).switchPending = s.switchPending := rfl
@[simp] theorem countTicks_totalTicks (s : State) : (countTicks s).totalTicks = s.totalTicks + BitVec.ofNat 64 s.ticks := rfl
@[simp] theorem countTicks_budget (s : State) : (countTicks s).budget = s.budget := rfl
@[simp] theorem countTicks_frameCount (s : State) : (countTicks s).frameCount = s.frameCount := rfl
@[simp] theorem countTicks_buttons (s : State) : (countTicks s).buttons = s.buttons := rfl
@[simp] theorem countTicks_directions (s : State) : (countTicks s).directions = s.directions := rfl
@[simp] theorem countTicks_select (s : State) : (countTicks s).select = s.select := rfl
@[simp] theorem countTicks_fault (s : State) : (countTicks s).fault = s.fault := rfl
@[simp] theorem countTicks_mem (s : State) : (countTicks s).mem = s.mem := rfl
@[simp] theorem countTicks_ticks (s : State) : (countTicks s).ticks = s.ticks := rfl
@[simp] theorem countTicks_hostCalls (s : State) : (countTicks s).hostCalls = s.hostCalls := rfl
@[simp] theorem countTicks_framesResult (s : State) : (countTicks s).framesResult = s.framesResult := rfl
@[simp] theorem countTicks_imageResult (s : State) : (countTicks s).imageResult = s.imageResult := rfl
@[simp] theorem countTicks_timerOwn (s : State) : (countTicks s).timerOwn = s.timerOwn := rfl
@[simp] theorem countTicks_displayOwn (s : State) : (countTicks s).displayOwn = s.displayOwn := rfl

@[simp] theorem timerStep_params (s : State) : (timerStep s).params = s.params := rfl
@[simp] theorem timerStep_regs (s : State) : (timerStep s).regs = s.regs := rfl
@[simp] theorem timerStep_ime (s : State) : (timerStep s).ime = s.ime := rfl
@[simp] theorem timerStep_imePending (s : State) : (timerStep s).imePending = s.imePending := rfl
@[simp] theorem timerStep_halt (s : State) : (timerStep s).halt = s.halt := rfl
@[simp] theorem timerStep_stop (s : State) : (timerStep s).stop = s.stop := rfl
@[simp] theorem timerStep_intEnable (s : State) : (timerStep s).intEnable = s.intEnable := rfl
@[simp] theorem timerStep_speed (s : State) : (timerStep s).speed = s.speed := rfl
@[simp] theorem timerStep_switchPending (s : State) : (timerStep s).switchPending = s.switchPending := rfl
@[simp] theorem timerStep_totalTicks (s : State) : (timerStep s).totalTicks = s.totalTicks := rfl
@[simp] theorem timerStep_budget (s : State) : (timerStep s).budget = s.budget := rfl
@[simp] theorem timerStep_frameCount (s : State) : (timerStep s).frameCount = s.frameCount := rfl
@[simp] theorem timerStep_buttons (s : State) : (timerStep s).buttons = s.buttons := rfl
@[simp] theorem timerStep_directions (s : State) : (timerStep s).directions = s.directions := rfl
@[simp] theorem timerStep_select (s : State) : (timerStep s).select = s.select := rfl
@[simp] theorem timerStep_fault (s : State) : (timerStep s).fault = s.fault := rfl
@[simp] theorem timerStep_mem (s : State) : (timerStep s).mem = s.mem := rfl
@[simp] theorem timerStep_ticks (s : State) : (timerStep s).ticks = s.ticks := rfl
@[simp] theorem timerStep_hostCalls (s : State) : (timerStep s).hostCalls = s.hostCalls := rfl
@[simp] theorem timerStep_framesResult (s : State) : (timerStep s).framesResult = s.framesResult := rfl
@[simp] theorem timerStep_imageResult (s : State) : (timerStep s).imageResult = s.imageResult := rfl
@[simp] theorem timerStep_displayOwn (s : State) : (timerStep s).displayOwn = s.displayOwn := rfl

@[simp] theorem displayStep_params (s : State) : (displayStep s).params = s.params := rfl
@[simp] theorem displayStep_regs (s : State) : (displayStep s).regs = s.regs := rfl
@[simp] theorem displayStep_ime (s : State) : (displayStep s).ime = s.ime := rfl
@[simp] theorem displayStep_imePending (s : State) : (displayStep s).imePending = s.imePending := rfl
@[simp] theorem displayStep_halt (s : State) : (displayStep s).halt = s.halt := rfl
@[simp] theorem displayStep_stop (s : State) : (displayStep s).stop = s.stop := rfl
@[simp] theorem displayStep_intEnable (s : State) : (displayStep s).intEnable = s.intEnable := rfl
@[simp] theorem displayStep_speed (s : State) : (displayStep s).speed = s.speed := rfl
@[simp] theorem displayStep_switchPending (s : State) : (displayStep s).switchPending = s.switchPending := rfl
@[simp] theorem displayStep_totalTicks (s : State) : (displayStep s).totalTicks = s.totalTicks := rfl
@[simp] theorem displayStep_budget (s : State) : (displayStep s).budget = s.budget := rfl
@[simp] theorem displayStep_frameCount (s : State) : (displayStep s).frameCount = s.frameCount := rfl
@[simp] theorem displayStep_buttons (s : State) : (displayStep s).buttons = s.buttons := rfl
@[simp] theorem displayStep_directions (s : State) : (displayStep s).directions = s.directions := rfl
@[simp] theorem displayStep_select (s : State) : (displayStep s).select = s.select := rfl
@[simp] theorem displayStep_fault (s : State) : (displayStep s).fault = s.fault := rfl
@[simp] theorem displayStep_mem (s : State) : (displayStep s).mem = s.mem := rfl
@[simp] theorem displayStep_ticks (s : State) : (displayStep s).ticks = s.ticks := rfl
@[simp] theorem displayStep_hostCalls (s : State) : (displayStep s).hostCalls = s.hostCalls := rfl
@[simp] theorem displayStep_framesResult (s : State) : (displayStep s).framesResult = s.framesResult := rfl
@[simp] theorem displayStep_imageResult (s : State) : (displayStep s).imageResult = s.imageResult := rfl
@[simp] theorem displayStep_timerOwn (s : State) : (displayStep s).timerOwn = s.timerOwn := rfl

@[simp] theorem chargeBudget_params (s : State) : (chargeBudget s).params = s.params := rfl
@[simp] theorem chargeBudget_regs (s : State) : (chargeBudget s).regs = s.regs := rfl
@[simp] theorem chargeBudget_ime (s : State) : (chargeBudget s).ime = s.ime := rfl
@[simp] theorem chargeBudget_imePending (s : State) : (chargeBudget s).imePending = s.imePending := rfl
@[simp] theorem chargeBudget_halt (s : State) : (chargeBudget s).halt = s.halt := rfl
@[simp] theorem chargeBudget_stop (s : State) : (chargeBudget s).stop = s.stop := rfl
@[simp] theorem chargeBudget_intFlag (s : State) : (chargeBudget s).intFlag = s.intFlag := rfl
@[simp] theorem chargeBudget_intEnable (s : State) : (chargeBudget s).intEnable = s.intEnable := rfl
@[simp] theorem chargeBudget_speed (s : State) : (chargeBudget s).speed = s.speed := rfl
@[simp] theorem chargeBudget_switchPending (s : State) : (chargeBudget s).switchPending = s.switchPending := rfl
@[simp] theorem chargeBudget_totalTicks (s : State) : (chargeBudget s).totalTicks = s.totalTicks := rfl
@[simp] theorem chargeBudget_budget (s : State) : (chargeBudget s).budget = s.budget - s.ticks := rfl
@[simp] theorem chargeBudget_frameCount (s : State) : (chargeBudget s).frameCount = s.frameCount := rfl
@[simp] theorem chargeBudget_buttons (s : State) : (chargeBudget s).buttons = s.buttons := rfl
@[simp] theorem chargeBudget_directions (s : State) : (chargeBudget s).directions = s.directions := rfl
@[simp] theorem chargeBudget_select (s : State) : (chargeBudget s).select = s.select := rfl
@[simp] theorem chargeBudget_fault (s : State) : (chargeBudget s).fault = s.fault := rfl
@[simp] theorem chargeBudget_mem (s : State) : (chargeBudget s).mem = s.mem := rfl
@[simp] theorem chargeBudget_ticks (s : State) : (chargeBudget s).ticks = s.ticks := rfl
@[simp] theorem chargeBudget_hostCalls (s : State) : (chargeBudget s).hostCalls = s.hostCalls := rfl
@[simp] theorem chargeBudget_framesResult (s : State) : (chargeBudget s).framesResult = s.framesResult := rfl
@[simp] theorem chargeBudget_imageResult (s : State) : (chargeBudget s).imageResult = s.imageResult := rfl
@[simp] theorem chargeBudget_timerOwn (s : State) : (chargeBudget s).timerOwn = s.timerOwn := rfl
@[simp] theorem chargeBudget_displayOwn (s : State) : (chargeBudget s).displayOwn = s.displayOwn := rfl

@[simp] theorem finishIfSpent_params (s : State) : (finishIfSpent s).params = s.params := rfl
@[simp] theorem finishIfSpent_regs (s : State) : (finishIfSpent s).regs = s.regs := rfl
@[simp] theorem finishIfSpent_ime (s : State) : (finishIfSpent s).ime = s.ime := rfl
@[simp] theorem finishIfSpent_imePending (s : State) : (finishIfSpent s).imePending = s.imePending := rfl
@[simp] theorem finishIfSpent_halt (s : State) : (finishIfSpent s).halt = s.halt := rfl
@[simp] theorem finishIfSpent_stop (s : State) : (finishIfSpent s).stop = s.stop := rfl
@[simp] theorem finishIfSpent_intFlag (s : State) : (finishIfSpent s).intFlag = s.intFlag := rfl
@[simp] theorem finishIfSpent_intEnable (s : State) : (finishIfSpent s).intEnable = s.intEnable := rfl
@[simp] theorem finishIfSpent_speed (s : State) : (finishIfSpent s).speed = s.speed := rfl
@[simp] theorem finishIfSpent_switchPending (s : State) : (finishIfSpent s).switchPending = s.switchPending := rfl
@[simp] theorem finishIfSpent_totalTicks (s : State) : (finishIfSpent s).totalTicks = s.totalTicks := rfl
@[simp] theorem finishIfSpent_budget (s : State) : (finishIfSpent s).budget = s.budget := rfl
@[simp] theorem finishIfSpent_frameCount (s : State) : (finishIfSpent s).frameCount = if s.budget ≤ 0 then s.frameCount + 1 else s.frameCount := rfl
@[simp] theorem finishIfSpent_buttons (s : State) : (finishIfSpent s).buttons = s.buttons := rfl
@[simp] theorem finishIfSpent_directions (s : State) : (finishIfSpent s).directions = s.directions := rfl
@[simp] theorem finishIfSpent_select (s : State) : (finishIfSpent s).select = s.select := rfl
@[simp] theorem finishIfSpent_fault (s : State) : (finishIfSpent s).fault = s.fault := rfl
@[simp] theorem finishIfSpent_mem (s : State) : (finishIfSpent s).mem = s.mem := rfl
@[simp] theorem finishIfSpent_ticks (s : State) : (finishIfSpent s).ticks = s.ticks := rfl
@[simp] theorem finishIfSpent_hostCalls (s : State) : (finishIfSpent s).hostCalls = s.hostCalls := rfl
@[simp] theorem finishIfSpent_framesResult (s : State) : (finishIfSpent s).framesResult = s.framesResult := rfl
@[simp] theorem finishIfSpent_imageResult (s : State) : (finishIfSpent s).imageResult = s.imageResult := rfl
@[simp] theorem finishIfSpent_timerOwn (s : State) : (finishIfSpent s).timerOwn = s.timerOwn := rfl
@[simp] theorem finishIfSpent_displayOwn (s : State) : (finishIfSpent s).displayOwn = s.displayOwn := rfl

@[simp] theorem skipStopByte_params (s : State) : (skipStopByte s).params = s.params := rfl
@[simp] theorem skipStopByte_ime (s : State) : (skipStopByte s).ime = s.ime := rfl
@[simp] theorem skipStopByte_imePending (s : State) : (skipStopByte s).imePending = s.imePending := rfl
@[simp] theorem skipStopByte_halt (s : State) : (skipStopByte s).halt = s.halt := rfl
@[simp] theorem skipStopByte_stop (s : State) : (skipStopByte s).stop = s.stop := rfl
@[simp] theorem skipStopByte_intFlag (s : State) : (skipStopByte s).intFlag = s.intFlag := rfl
@[simp] theorem skipStopByte_intEnable (s : State) : (skipStopByte s).intEnable = s.intEnable := rfl
@[simp] theorem skipStopByte_speed (s : State) : (skipStopByte s).speed = s.speed := rfl
@[simp] theorem skipStopByte_switchPending (s : State) : (skipStopByte s).switchPending = s.switchPending := rfl
@[simp] theorem skipStopByte_totalTicks (s : State) : (skipStopByte s).totalTicks = s.totalTicks := rfl
@[simp] theorem skipStopByte_budget (s : State) : (skipStopByte s).budget = s.budget := rfl
@[simp] theorem skipStopByte_frameCount (s : State) : (skipStopByte s).frameCount = s.frameCount := rfl
@[simp] theorem skipStopByte_buttons (s : State) : (skipStopByte s).buttons = s.buttons := rfl
@[simp] theorem skipStopByte_directions (s : State) : (skipStopByte s).directions = s.directions := rfl
@[simp] theorem skipStopByte_select (s : State) : (skipStopByte s).select = s.select := rfl
@[simp] theorem skipStopByte_fault (s : State) : (skipStopByte s).fault = s.fault := rfl
@[simp] theorem skipStopByte_mem (s : State) : (skipStopByte s).mem = s.mem := rfl
@[simp] theorem skipStopByte_ticks (s : State) : (skipStopByte s).ticks = s.ticks := rfl
@[simp] theorem skipStopByte_hostCalls (s : State) : (skipStopByte s).hostCalls = s.hostCalls := rfl
@[simp] theorem skipStopByte_framesResult (s : State) : (skipStopByte s).framesResult = s.framesResult := rfl
@[simp] theorem skipStopByte_imageResult (s : State) : (skipStopByte s).imageResult = s.imageResult := rfl
@[simp] theorem skipStopByte_timerOwn (s : State) : (skipStopByte s).timerOwn = s.timerOwn := rfl
@[simp] theorem skipStopByte_displayOwn (s : State) : (skipStopByte s).displayOwn = s.displayOwn := rfl

end Sys2Proof.Machine
end

