-- ==== Sys2Proof/Laws/PerInstr.lean ====
section
/-! SUPPORT. A property of every instruction as syntax, one lemma per constructor: the opcode byte of a well-formed
instruction lies in the part of the opcode map the instruction belongs to (30_encoding.md R56, R58, R59). -/

namespace Sys2Proof.Laws.OpcodeClass

/-- The byte of a well-formed instruction is in the instruction's part of the map. -/
def Statement (i : Instr) : Prop := i.wf = true → opcodeClass i.opcode = i.opcodeClass

theorem nop : Statement .nop := fun _ => by decide

theorem stop : Statement .stop := fun _ => by decide

theorem halt : Statement .halt := fun _ => by decide

theorem reti : Statement .reti := fun _ => by decide

theorem di : Statement .di := fun _ => by decide

theorem ei : Statement .ei := fun _ => by decide

theorem illegalD3 : Statement .illegalD3 := fun _ => by decide

theorem illegalDB : Statement .illegalDB := fun _ => by decide

theorem illegalDD : Statement .illegalDD := fun _ => by decide

theorem illegalE3 : Statement .illegalE3 := fun _ => by decide

theorem illegalE4 : Statement .illegalE4 := fun _ => by decide

theorem illegalEB : Statement .illegalEB := fun _ => by decide

theorem illegalEC : Statement .illegalEC := fun _ => by decide

theorem illegalED : Statement .illegalED := fun _ => by decide

theorem illegalF4 : Statement .illegalF4 := fun _ => by decide

theorem illegalFC : Statement .illegalFC := fun _ => by decide

theorem illegalFD : Statement .illegalFD := fun _ => by decide

theorem delegated (op : Byte) : Statement (.delegated op) := fun h =>
  eq_of_beq h

end Sys2Proof.Laws.OpcodeClass
end

