-- ==== Sys2Proof/Laws/Scheduler.lean ====
section
/-! SUPPORT. What a driver step, a host call and a pass of the frame loop leave alone, and runs of the block step by
step (43_frame_scheduler.md). -/

namespace Sys2Proof.Machine

variable {s t : State}

/-- What a driver step leaves, and how it counts its ticks (42_driver_step.md R88). -/
structure DriverFrame (s t : State) : Prop where
  params : t.params = s.params
  budget : t.budget = s.budget
  frameCount : t.frameCount = s.frameCount
  totalTicks : t.totalTicks = s.totalTicks + BitVec.ofNat 64 t.ticks
  buttons : t.buttons = s.buttons
  directions : t.directions = s.directions
  fault : t.fault = s.fault
  hostCalls : t.hostCalls = s.hostCalls
  framesResult : t.framesResult = s.framesResult
  imageResult : t.imageResult = s.imageResult
  timerOwn : t.timerOwn = s.timerOwn
  displayOwn : t.displayOwn = s.displayOwn

theorem partTwo_same (h : partTwo s = .next t) :
    SameOutsideExec { s with speed := t.speed } t := by
  rcases partTwo_next h with ⟨-, he, -⟩ | ⟨-, -, rfl⟩ | ⟨-, -, rfl⟩
  · have k := exec_next_same he
    exact ⟨k.params, rfl, k.totalTicks, k.budget, k.frameCount, k.buttons, k.directions, k.fault, k.hostCalls,
      k.framesResult, k.imageResult, k.timerOwn, k.displayOwn⟩
  all_goals constructor <;> rfl

theorem interruptController_same (h : interruptController s = .next t) : SameOutsideExec s t := by
  rcases interruptController_next h with ⟨rfl, -⟩ | ⟨src, -, ⟨-, rfl⟩ | ⟨-, -, rfl⟩⟩
  · exact .rfl'
  · constructor <;> simp
  · constructor <;> rfl

theorem driverStep_frame (h : driverStep s = .next t) : DriverFrame s t := by
  obtain ⟨-, u, v, hu, hv, rfl⟩ := driverStep_next h
  have k := partTwo_same hu
  have l := interruptController_same hv
  constructor
  · simp [l.params, k.params]
  · simp [l.budget, k.budget]
  · simp [l.frameCount, k.frameCount]
  · simp [l.totalTicks, k.totalTicks]
  · simp [l.buttons, k.buttons]
  · simp [l.directions, k.directions]
  · simp [l.fault, k.fault]
  · simp [l.hostCalls, k.hostCalls]
  · simp [l.framesResult, k.framesResult]
  · simp [l.imageResult, k.imageResult]
  · simp [l.timerOwn, k.timerOwn]
  · simp [l.displayOwn, k.displayOwn]

/-! ### Host calls -/

/-- What no host call touches: the CPU, the clock mode, the byte store and the parameters (00_scope.md R12). -/
structure HostFrame (s t : State) : Prop where
  params : t.params = s.params
  regs : t.regs = s.regs
  ime : t.ime = s.ime
  imePending : t.imePending = s.imePending
  halt : t.halt = s.halt
  stop : t.stop = s.stop
  intEnable : t.intEnable = s.intEnable
  speed : t.speed = s.speed
  switchPending : t.switchPending = s.switchPending
  totalTicks : t.totalTicks = s.totalTicks
  select : t.select = s.select
  fault : t.fault = s.fault
  mem : t.mem = s.mem
  ticks : t.ticks = s.ticks
  timerOwn : t.timerOwn = s.timerOwn
  displayOwn : t.displayOwn = s.displayOwn

theorem performCall_frame (c : HostCall) (s : State) : HostFrame s (performCall c s) := by
  cases c
  case keydown key =>
    simp only [performCall, keyDown, State.mapNibble]
    split <;> constructor <;> rfl
  case keyup key =>
    simp only [performCall, keyUp, State.mapNibble]
    split <;> constructor <;> rfl
  all_goals constructor <;> rfl

theorem hostTurn_frame (s : State) : HostFrame s (hostTurn s) := by
  unfold hostTurn
  split
  · constructor <;> rfl
  · rename_i c rest _
    have k := performCall_frame c (s.setHostCalls rest)
    exact ⟨k.params, k.regs, k.ime, k.imePending, k.halt, k.stop, k.intEnable, k.speed, k.switchPending, k.totalTicks,
      k.select, k.fault, k.mem, k.ticks, k.timerOwn, k.displayOwn⟩

/-! ### Steps and runs -/

theorem step_inFrame (hf : s.fault = none) (hb : 0 < s.budget) : step s = frameIteration s := by
  simp only [step, whileSound, hf, if_pos hb]

theorem step_between (hf : s.fault = none) (hb : s.budget ≤ 0) : step s = .next (hostTurn s) := by
  simp only [step, whileSound, hf, if_neg (Int.not_lt.2 hb)]

theorem step_faulted {f : Fault} (hf : s.fault = some f) : step s = .fault f := by
  simp only [step, whileSound, hf]

theorem driverStep_faulted {f : Fault} (hf : s.fault = some f) : driverStep s = .fault f := by
  simp only [driverStep, whileSound, hf]

theorem run_succ_next (M : Host.Core) {k : Nat} {s t : M.State} :
    M.run (k + 1) s = .next t ↔ ∃ u, M.step s = .next u ∧ M.run k u = .next t := by
  rw [Host.Core.run]
  cases M.step s with
  | next u => simp
  | fault f => simp
  | refused r => simp

/-- A run of `k + 1` steps is a step and a run of `k`. -/
theorem safeRun_succ {k : Nat} : SafeRun (k + 1) s t ↔ ∃ u, step s = .next u ∧ SafeRun k u t :=
  run_succ_next Sys2Proof.core

@[simp] theorem safeRun_zero : SafeRun 0 s t ↔ s = t := by
  constructor
  · intro h
    cases h
    rfl
  · rintro rfl
    rfl

/-- What every step keeps from a state on, every run keeps. -/
theorem safeRun_invariant {P : State → Prop} (hstep : ∀ s t, P s → step s = .next t → P t) {k : Nat}
    (hs : P s) (h : SafeRun k s t) : P t := by
  induction k generalizing s with
  | zero => exact safeRun_zero.1 h ▸ hs
  | succ k ih =>
    obtain ⟨u, hu, hr⟩ := safeRun_succ.1 h
    exact ih (hstep s u hs hu) hr

end Sys2Proof.Machine
end

