-- ==== Sys2Proof/Tests/Slice0.lean ====
section
/-! SUPPORT. The model's own tests. Expected results come from spec/95_test_vectors.md (named in each docstring) and
from the encodings of spec/opcode_table.json; the witnesses show that the hypotheses of each statement can be met. -/

namespace Sys2Proof.Tests

open Sys2Proof.Machine

/-! ## Decoding: words written out bit by bit from spec/opcode_table.json -/

theorem test_decode_nop : decodeTableWord 8 0b00000000 = some .nop := by decide
theorem test_decode_stop : decodeTableWord 8 0b00010000 = some .stop := by decide
theorem test_decode_halt : decodeTableWord 8 0b01110110 = some .halt := by decide
theorem test_decode_reti : decodeTableWord 8 0b11011001 = some .reti := by decide
theorem test_decode_di : decodeTableWord 8 0b11110011 = some .di := by decide
theorem test_decode_ei : decodeTableWord 8 0b11111011 = some .ei := by decide
theorem test_decode_prefix : decodeTableWord 8 0b11001011 = some (.delegated 0xCB) := by decide
theorem test_decode_illegalD3 : decodeTableWord 8 0b11010011 = some .illegalD3 := by decide
theorem test_decode_illegalDB : decodeTableWord 8 0b11011011 = some .illegalDB := by decide
theorem test_decode_illegalDD : decodeTableWord 8 0b11011101 = some .illegalDD := by decide
theorem test_decode_illegalE3 : decodeTableWord 8 0b11100011 = some .illegalE3 := by decide
theorem test_decode_illegalE4 : decodeTableWord 8 0b11100100 = some .illegalE4 := by decide
theorem test_decode_illegalEB : decodeTableWord 8 0b11101011 = some .illegalEB := by decide
theorem test_decode_illegalEC : decodeTableWord 8 0b11101100 = some .illegalEC := by decide
theorem test_decode_illegalED : decodeTableWord 8 0b11101101 = some .illegalED := by decide
theorem test_decode_illegalF4 : decodeTableWord 8 0b11110100 = some .illegalF4 := by decide
theorem test_decode_illegalFC : decodeTableWord 8 0b11111100 = some .illegalFC := by decide
theorem test_decode_illegalFD : decodeTableWord 8 0b11111101 = some .illegalFD := by decide

/-- A delegated byte with no row of its own (30_encoding.md R58). -/
theorem test_decode_delegated : decode [0x3C, 0x00] = .ok (.delegated 0x3C, [0x00]) := rfl

/-- The one list of bytes the decoder refuses. -/
theorem test_decode_empty : decode [] = .error .noOpcodeByte := rfl

/-! ## WellFormed: the one check, and the terms it refuses -/

theorem test_wf_refuses_a_core_byte : (Instr.delegated 0x00).wf = false := by decide
theorem test_wf_refuses_an_illegal_byte : (Instr.delegated 0xD3).wf = false := by decide
theorem test_wf_accepts_the_prefix : (Instr.delegated 0xCB).wf = true := by decide

/-! ## A small state, as the conventions of spec/95_test_vectors.md give it -/

/-- An executor of four opcodes: 0xE0 stores 0x00 to IF, 0x3C copies bit 0 of A to B and faults on it set, 0x01
fetches two bytes, and the prefixed 0x11 writes F. -/
def testExecutor : Executor where
  ops := [(0xE0, .memWrite 0xFF0F 0x00 (.done 3)),
          (0x3C, .testBit (.reg8 .a) 0 .fault (.writeReg8 .b 0x00 (.done 1))),
          (0x01, .fetchByte (.fetchByte (.testBit .lastByte 7 (.writeSp 0x8000 (.done 3)) (.done 3))))]
  cbOps := [(0x11, .writeReg8 .f 0xFF (.done 2))]

/-- The parameters of the vectors: `Mono`, `STOP_LENGTH = 2`, the defaults, and a frame of ten ticks. -/
def monoParams : Params where
  target := .mono
  executor := testExecutor
  frameTicks := 10
  initRegs := defaultInitRegs .mono
  stopLength := .two
  coreCost := defaultCoreCost
  joypMultiValue := 0x0F
  joypResetSelect := .buttons
  ifReset := 0x00
  ieReset := 0x00

/-- The same on `Color`. -/
def colorParams : Params := { monoParams with target := .color, initRegs := defaultInitRegs .color }

/-- The start state of the vectors, with PC, the listed bytes, IME, IF and IE. -/
def start (pc : Word) (m : Memory) (ime : Bool) (flag enable : Byte) : State :=
  { State.resetFor monoParams [] with
    regs := { defaultInitRegs .mono with pc := pc }, mem := m, ime := ime, intFlag := flag, intEnable := enable }

/-- The outcome is a next state of which `p` holds. -/
def ends (r : Result) (p : State → Bool) : Bool :=
  match r with
  | .next t => p t
  | .fault _ => false
  | .refused _ => false

/-- The fault an outcome reports. -/
def faultOf (r : Result) : Option Fault :=
  match r with
  | .next _ => none
  | .fault f => some f
  | .refused _ => none

/-! ## One step each -/

/-- NP1. -/
theorem test_nop : ends (driverStep (start 0x0101 [] false 0 0)) (fun t => t.pc == 0x0102 && t.ticks == 4) = true := by
  decide

/-- NP2: the opcode byte is IE. -/
theorem test_nop_wraps :
    ends (driverStep (start 0xFFFF [] false 0 0)) (fun t => t.pc == 0x0000 && t.ticks == 4) = true := by
  decide

/-- HT2. -/
theorem test_halt_woken : ends (driverStep (start 0x0200 [(0x0200, 0x76)] false 0x01 0x01))
    (fun t => t.halt == false && t.intFlag == 0x01 && t.pc == 0x0201 && t.ticks == 4) = true := by
  decide

/-- HT3. -/
theorem test_halt_taken : ends (driverStep (start 0x0200 [(0x0200, 0x76)] true 0x01 0x01))
    (fun t => t.halt == false && t.intFlag == 0 && t.ime == false && t.pc == 0x0040 && t.sp == 0xFFFC &&
      memRead t 0xFFFD == 0x02 && memRead t 0xFFFC == 0x01 && t.ticks == 8) = true := by
  decide

/-- ST1 and ST2. -/
theorem test_stop : ends (driverStep (start 0x0150 [(0x0150, 0x10)] false 0 0))
      (fun t => t.stop == true && t.pc == 0x0152 && t.ticks == 4) = true ∧
    ends (driverStep { start 0x0150 [(0x0150, 0x10)] false 0 0 with
        params := { monoParams with stopLength := .one } })
      (fun t => t.stop == true && t.pc == 0x0151 && t.ticks == 4) = true := by
  decide

/-- ST5. -/
theorem test_stop_taken : ends (driverStep { start 0x0150 [(0x0150, 0x10)] true 0x04 0x04 with
        params := colorParams, switchPending := true })
    (fun t => t.stop == false && t.intFlag == 0 && t.ime == false && t.pc == 0x0050 && memRead t 0xFFFD == 0x01 &&
      memRead t 0xFFFC == 0x52 && t.switchPending == true && t.speed == .normal && t.ticks == 8) = true := by
  decide

/-- EI1, step 1. -/
theorem test_ei : ends (driverStep (start 0x0100 [(0x0100, 0xFB)] false 0x01 0x01))
    (fun t => t.ime == false && t.imePending == true && t.pc == 0x0101 && t.ticks == 4) = true := by
  decide

/-- EI3, step 1. -/
theorem test_ei_taken : ends (driverStep (start 0x0100 [(0x0100, 0xFB)] true 0x01 0x01))
    (fun t => t.ime == false && t.imePending == true && t.pc == 0x0040 && memRead t 0xFFFD == 0x01 &&
      memRead t 0xFFFC == 0x01 && t.ticks == 8) = true := by
  decide

/-- DI1. -/
theorem test_di : ends (driverStep (start 0x0300 [(0x0300, 0xF3)] true 0x04 0x04))
    (fun t => t.ime == false && t.intFlag == 0x04 && t.pc == 0x0301 && t.ticks == 4) = true := by
  decide

/-- EI4, step 2. -/
theorem test_di_after_ei : ends (driverStep { start 0x0101 [(0x0101, 0xF3)] false 0x01 0x01 with imePending := true })
    (fun t => t.ime == false && t.imePending == false && t.intFlag == 0x01 && t.pc == 0x0102 && t.ticks == 4) = true := by
  decide

/-- RT2: the low byte is IE, the high byte is at 0x0000. -/
theorem test_reti_wraps :
    ends (exec .reti { start 0x0041 [(0x0000, 0x12)] false 0 0x34 with regs := { defaultInitRegs .mono with sp := 0xFFFF } })
      (fun t => t.pc == 0x1234 && t.sp == 0x0001 && t.ime == true && t.ticks == 4) = true := by
  decide

/-- RT3. -/
theorem test_reti_taken :
    ends (driverStep { start 0x0040 [(0x0040, 0xD9), (0xFFFC, 0x02), (0xFFFD, 0x01)] false 0x04 0x04 with
        regs := { defaultInitRegs .mono with sp := 0xFFFC, pc := 0x0040 } })
      (fun t => t.pc == 0x0050 && t.sp == 0xFFFC && memRead t 0xFFFD == 0x01 && memRead t 0xFFFC == 0x02 &&
        t.intFlag == 0 && t.ime == false && t.ticks == 20) = true := by
  decide

/-- 70_reset_and_hazards.md R136: a store of 0x00 to IF cancels the interrupt the same step would take. -/
theorem test_delegated_cancels_interrupt :
    ends (driverStep (start 0x0100 [(0x0100, 0xE0)] true 0x01 0x01))
      (fun t => t.pc == 0x0101 && t.intFlag == 0x00 && t.ime == true && t.ticks == 12) = true := by
  decide

/-- 41_executor_contract.md R77, 30_encoding.md R60: a byte with no tree, a fault half-way, and a byte after the prefix
with no tree, which names the prefix. -/
theorem test_delegated_missing :
    faultOf (driverStep (start 0x0100 [(0x0100, 0x3D)] false 0 0)) = some (.undefinedOpcode 0x3D) ∧
    faultOf (driverStep (start 0x0100 [(0x0100, 0x3C)] false 0 0)) = some (.undefinedOpcode 0x3C) ∧
    faultOf (driverStep (start 0x0100 [(0x0100, 0xCB)] false 0 0)) = some (.undefinedOpcode 0xCB) := by
  decide

/-- 30_encoding.md R60, 10_state.md R17: PC is past the second byte, and a write to F leaves F[3:0] zero. -/
theorem test_prefix_fetches :
    ends (driverStep (start 0x0100 [(0x0100, 0xCB), (0x0101, 0x11)] false 0 0))
      (fun t => t.pc == 0x0102 && t.regs.f == 0xF0 && t.ticks == 8) = true := by
  decide

/-- FT1, for each of the eleven bytes (30_encoding.md R59). -/
theorem test_illegal : ∀ op ∈ illegalOpcodes,
    faultOf (driverStep (start 0x0100 [(0x0100, op)] false 0 0)) = some (.undefinedOpcode op) := by
  decide

/-! ## The driver step and the controller -/

/-- DS1. -/
theorem test_latch_when_halted : ends (driverStep { start 0x0201 [] false 0 0 with imePending := true, halt := true })
    (fun t => t.ime == true && t.imePending == false && t.halt == true && t.ticks == 4) = true := by
  decide

/-- DS5. -/
theorem test_counter_wraps :
    ends (driverStep { start 0x0101 [] false 0 0 with totalTicks := 0xFFFFFFFFFFFFFFFE })
      (fun t => t.totalTicks == 2 && t.ticks == 4) = true := by
  decide

/-- DS6. -/
theorem test_switch_then_dispatch :
    ends (driverStep { start 0x0152 [] true 0x04 0x04 with params := colorParams, stop := true, switchPending := true })
      (fun t => t.speed == .double && t.stop == false && t.switchPending == false && t.intFlag == 0 && t.ime == false &&
        t.pc == 0x0050 && t.sp == 0xFFFC && memRead t 0xFFFD == 0x01 && memRead t 0xFFFC == 0x52 && t.ticks == 4) =
      true := by
  decide

/-- IC4 and IC11. -/
theorem test_controller_priority :
    ends (interruptController (start 0x0101 [] true 0x21 0x21)) (fun t => t.intFlag == 0x20 && t.pc == 0x0040) = true ∧
    ends (interruptController (start 0x0101 [] true 0x18 0x1F)) (fun t => t.intFlag == 0x10 && t.pc == 0x0058) = true := by
  decide

/-- IC5 and IC7. -/
theorem test_controller_bad_index :
    faultOf (interruptController (start 0x0101 [] true 0x20 0x20)) = some (.badInterruptIndex 5) ∧
    faultOf (interruptController { start 0x0101 [] false 0xE0 0xE0 with halt := true }) =
      some (.badInterruptIndex 5) := by
  decide

/-- IC9 and IC10. -/
theorem test_controller_stopped :
    ends (interruptController { start 0x0101 [] false 0x01 0x01 with stop := true })
      (fun t => t.stop == true && t.pc == 0x0101) = true ∧
    ends (interruptController { start 0x0101 [] true 0x01 0x01 with stop := true })
      (fun t => t.stop == false && t.pc == 0x0040) = true := by
  decide

/-- PS2 and PS3. -/
theorem test_push_on_ie :
    ends (.next (dispatchInterrupt .vblank { start 0 [] true 0x01 0x01 with
        regs := { defaultInitRegs .mono with sp := 0x0001, pc := 0x0234 } }))
      (fun t => t.sp == 0xFFFF && memRead t 0x0000 == 0x02 && t.intEnable == 0x34) = true ∧
    ends (.next (dispatchInterrupt .vblank { start 0 [] true 0x01 0x01 with
        regs := { defaultInitRegs .mono with sp := 0x0000, pc := 0x0234 } }))
      (fun t => t.sp == 0xFFFE && memRead t 0xFFFE == 0x34 && t.intEnable == 0x02) = true := by
  decide

/-- PS4. -/
theorem test_push_on_if :
    ends (.next (dispatchInterrupt .vblank { start 0 [] true 0x01 0x01 with
        regs := { defaultInitRegs .mono with sp := 0xFF10, pc := 0x0234 } }))
      (fun t => t.sp == 0xFF0E && memRead t 0xFF0E == 0x34 && t.intFlag == 0x02) = true := by
  decide

/-! ## The joypad, KEY1 and the scheduler -/

/-- JP1, JP2 and L1.8. -/
theorem test_keys :
    (let t := keyDown .start (start 0 [] false 0 0); t.buttons == 0x7 && t.directions == 0xF && t.intFlag == 0x10) = true ∧
    (let t := keyDown .down (start 0 [] false 0 0); t.buttons == 0xF && t.directions == 0x7 && t.intFlag == 0x10) = true ∧
    (let t := keyUp .a (keyDown .a (start 0 [] false 0 0)); t.buttons == 0xF && t.intFlag == 0x10) = true := by
  decide

/-- JP5 to JP9. -/
theorem test_joyp_write :
    joypColumn 0x20 = some .directions ∧ joypColumn 0x00 = some .both ∧ joypColumn 0x30 = none ∧
      joypColumn 0xD0 = some .buttons ∧ joypColumn 0x1F = some .buttons := by
  decide

/-- KY1, KY2, KY3 and KY5. -/
theorem test_key1 :
    memRead { start 0 [] false 0 0 with params := colorParams } 0xFF4D = 0x7E ∧
    memRead (memWrite { start 0 [] false 0 0 with params := colorParams } 0xFF4D 0x01) 0xFF4D = 0x7F ∧
    memRead { start 0 [] false 0 0 with params := colorParams, speed := .double } 0xFF4D = 0xFE ∧
    memRead (memWrite (start 0 [] false 0 0) 0xFF4D 0x01) 0xFF4D = 0xFF := by
  decide

/-- FR1, its first pass, and the entry of P5's frames. -/
theorem test_budget :
    ends (frameIteration { start 0x0100 [] false 0 0 with budget := 10 }) (fun t => t.budget == 6) = true ∧
    (beginFrame { start 0x0100 [] false 0 0 with budget := -2 }).budget = 8 := by
  decide

/-! ## Memory: canonical form -/

theorem test_write_is_canonical :
    Memory.write [(0xC000, 0x11)] 0xC000 unlistedByte = [] ∧
    Memory.write (Memory.write [] 0xC001 0x22) 0xC000 0x11 = [(0xC000, 0x11), (0xC001, 0x22)] := by
  decide

/-! ## Witnesses: the hypotheses of each statement, met by one concrete state and operands

Where a hypothesis says that a step answers a next state, the witness is that there is one. -/

/-- Running a NOP in the middle of a frame. -/
def inNop : State := { start 0x0101 [] false 0 0 with budget := 10 }

/-- Stopped on `Mono` with nothing that ends it, in a frame. -/
def hung : State := { start 0x0152 [] false 0 0 with stop := true, budget := 10 }

theorem witness_DecodeOfEncodeIsTheInstruction :
    (Instr.delegated 0xCB).wf = true ∧ (Instr.delegated 0x01).wf = true ∧ Instr.illegalFD.wf = true := by
  decide

theorem witness_EncodeOfDecodeIsTheBytes : [(0xFF : Byte)] ≠ [] := by decide

theorem witness_PairsAliasTheirRegisters : Reg16.hl ≠ .af := by decide

theorem witness_CoreRegistersOnTheBus :
    (start 0 [] false 0 0).select = .buttons ∧
    ({ start 0 [] false 0 0 with select := .directions } : State).select = .directions ∧
    ({ start 0 [] false 0 0 with select := .both } : State).select = .both ∧
    (0x10 : Byte).extractLsb' 4 2 = 0b01 ∧ (0x20 : Byte).extractLsb' 4 2 = 0b10 ∧
    (0xCF : Byte).extractLsb' 4 2 = 0b00 ∧ (0x30 : Byte).extractLsb' 4 2 = 0b11 ∧
    (start 0 [] false 0 0).params.target = .mono ∧ colorParams.target = .color := by
  decide

theorem witness_PlatformStoreReadsBack :
    Memory.wf (start 0 [(0xC000, 0x11)] false 0 0).mem ∧ busTarget 0x0000 = .ext ∧ busTarget 0xFF0E = .ext ∧
      busTarget 0xFF10 = .ext ∧ busTarget 0xFF01 = .ext ∧ busTarget 0xFFFE = .ext := by
  decide

theorem witness_StoreIsSeenByTheNextFetch :
    Memory.wf (start 0xFFFF [] false 0 0).mem ∧ (start 0xFFFF [] false 0 0).pc ≠ 0xFF00 ∧
      (start 0xFFFF [] false 0 0).pc ≠ 0xFF4D ∧ (start 0xFFFF [] false 0 0).pc = 0xFFFF := by
  decide

/-- The start state with another stack pointer. -/
def withSp (sp : Word) : State := { start 0 [] false 0 0 with regs := { defaultInitRegs .mono with sp := sp } }

/-- Each stack pointer of the clauses, and one that pushes to the platform. -/
theorem witness_PushStoresBelowSp : Memory.wf (withSp 0xFFFE).mem ∧ (withSp 0x0000).sp = 0x0000 ∧
    (withSp 0x0001).sp = 0x0001 ∧ (withSp 0xFF10).sp = 0xFF10 ∧ (withSp 0xFF11).sp = 0xFF11 :=
  ⟨Memory.wf_nil, rfl, rfl, rfl, rfl⟩

theorem witness_PushStoresBelowSp_platform :
    busTarget ((withSp 0xFFFE).sp - 1) = .ext ∧ busTarget ((withSp 0xFFFE).sp - 2) = .ext ∧
      busTarget ((withSp 0x0001).sp - 1) = .ext ∧ busTarget ((withSp 0x0000).sp - 2) = .ext := by
  decide

/-- A stack that wraps onto IE. -/
theorem witness_PopUndoesPush :
    Memory.wf (withSp 0x0001).mem ∧ (withSp 0x0001).sp - 1 ≠ 0xFF00 ∧ (withSp 0x0001).sp - 1 ≠ 0xFF4D ∧
      (withSp 0x0001).sp - 2 ≠ 0xFF00 ∧ (withSp 0x0001).sp - 2 ≠ 0xFF4D :=
  ⟨Memory.wf_nil, by decide, by decide, by decide, by decide⟩

theorem witness_NopOnlyCharges :
    inNop.fault = none ∧ Running inNop ∧ memRead inNop inNop.pc = 0x00 ∧ inNop.params.coreCost.nop ≠ 0 ∧
      inNop.intFlag &&& inNop.intEnable = 0 := by
  decide

/-- HT1, HT2 and HT3: the premises with nothing pending, pending with IME = 0, and pending with IME = 1. -/
theorem witness_HaltEntersHaltedAndWakesAtOnce : ∀ ime : Bool, ∀ flag ∈ [(0x00 : Byte), 0x01],
    let s := start 0x0200 [(0x0200, 0x76)] ime flag 0x01;
    s.fault = none ∧ Running s ∧ memRead s s.pc = 0x76 ∧ s.params.coreCost.halt ≠ 0 ∧
      lowestSet (s.intFlag &&& s.intEnable) = (if flag = 0 then none else some (interruptBit .vblank)) ∧
      (s.ime || s.imePending) = ime := by
  decide

theorem witness_HaltEntersHaltedAndWakesAtOnce_idle :
    let s := { start 0x0201 [] false 0x1F 0x00 with halt := true };
    s.fault = none ∧ s.halt = true ∧ s.stop = false ∧ s.intFlag &&& s.intEnable = 0 := by
  decide

theorem witness_StopEntersStopped : monoParams.stopLength = .two ∧
    ({ monoParams with stopLength := .one } : Params).stopLength = .one := by
  decide

theorem witness_DiDisablesAtOnce :
    (let s := start 0x0300 [(0x0300, 0xF3)] true 0x04 0x04;
      s.fault = none ∧ Running s ∧ memRead s s.pc = 0xF3 ∧ s.params.coreCost.di ≠ 0) ∧
    (let s := { start 0x0301 [] false 0x10 0x10 with halt := true };
      s.ime = false ∧ s.halt = true ∧ lowestSet (s.intFlag &&& s.intEnable) = some (interruptBit .joypad)) := by
  decide

theorem witness_RetiPopsAndEnablesAtOnce :
    (withSp 0xFFFF).sp = 0xFFFF ∧
    (let s := start 0x0040 [(0x0040, 0xD9)] false 0x04 0x04;
      s.fault = none ∧ Running s ∧ memRead s s.pc = 0xD9 ∧ s.params.coreCost.reti ≠ 0 ∧
        lowestSet (s.intFlag &&& s.intEnable) = some (interruptBit .timer)) := by
  decide

theorem witness_NopHaltStopFrame : ∀ i ∈ [Instr.nop, .halt, .stop], ends (exec i inNop) (fun _ => true) = true := by
  decide

theorem witness_EiDiRetiFrame : ∀ i ∈ [Instr.ei, .di, .reti], ends (exec i inNop) (fun _ => true) = true := by
  decide

/-- The store of 0xE0: it completes, and stores neither to the joypad register nor to KEY1 nor to 0xC000. -/
theorem witness_DelegatedOpcodeKeepsTheContract :
    faultless (delegatedTree 0xE0 inNop) = true ∧ ends (exec (.delegated 0xE0) inNop) (fun _ => true) = true ∧
    (let stores := storedAddresses (delegatedTree 0xE0 inNop) (entryByte 0xE0 inNop) (enterExecutor 0xE0 inNop);
      stores = [0xFF0F] ∧ 0xFF00 ∉ stores ∧ 0xFF4D ∉ stores ∧ 0xC000 ∉ stores) ∧
    inNop.regs.f &&& 0x0F = 0 ∧ Memory.wf inNop.mem := by
  decide

theorem witness_PrefixFetchesTheSecondByte :
    (let s := start 0x0101 [(0x0101, 0x11)] false 0 0;
      s.params.executor.cbOps.lookup (memRead s s.pc) = some (.writeReg8 .f 0xFF (.done 2))) ∧
    inNop.params.executor.cbOps.lookup (memRead inNop inNop.pc) = none := by
  decide

/-- A byte with no tree; a byte whose tree faults on A; an illegal byte. -/
theorem witness_UndefinedBytesFault :
    Instr.illegalD3.opcodeClass = .illegal ∧
    ((0x3D : Byte) ≠ 0xCB ∧ inNop.params.executor.ops.lookup 0x3D = none) ∧
    (let s := start 0x0100 [(0x0100, 0x3C)] false 0 0;
      s.fault = none ∧ Running s ∧ memRead s s.pc = 0x3C ∧ opcodeClass 0x3C = .delegated ∧
        faultOf (exec (.delegated 0x3C) { s with
          regs := { s.regs with pc := s.pc + 1 }, ime := s.ime || s.imePending, imePending := false }) =
            some (.undefinedOpcode 0x3C)) ∧
    (let s := start 0x0100 [(0x0100, 0xFD)] false 0 0;
      s.fault = none ∧ Running s ∧ memRead s s.pc = 0xFD) := by
  decide

theorem witness_StepRunsTheDecodedInstruction :
    inNop.fault = none ∧ InFrame inNop ∧ Running inNop ∧
      decode [memRead inNop inNop.pc, memRead inNop (inNop.pc + 1)] = .ok (.nop, [0x00]) :=
  ⟨rfl, by decide, by decide, rfl⟩

theorem witness_SpeedSwitchStep : ∀ speed ∈ [Speed.normal, .double],
    let s := { start 0x0152 [] false 0 0 with params := colorParams, stop := true, switchPending := true, speed := speed };
    s.halt = false ∧ s.stop = true ∧ s.switchPending = true ∧ s.params.target = .color ∧ s.fault = none ∧
      s.intFlag &&& s.intEnable = 0 ∧ s.speed = speed := by
  decide

/-- Halted; stopped on `Color` with no switch pending; stopped on `Mono` with one. -/
theorem witness_IdleStepOnlyCharges : ∀ s ∈
    [{ start 0x0201 [] false 0 0 with halt := true },
     { start 0x0152 [] false 0 0 with params := colorParams, stop := true },
     { start 0x0152 [] false 0 0 with stop := true, switchPending := true }],
    ¬Running s ∧ ¬(s.stop = true ∧ s.switchPending = true ∧ s.params.target = .color) ∧ s.fault = none ∧
      s.intFlag &&& s.intEnable = 0 := by
  decide

/-- Both modes. -/
theorem witness_TicksAreScaledBaseCycles : ∀ speed ∈ [Speed.normal, .double],
    ends (partTwo (resolveLatch { inNop with speed := speed })) (fun _ => true) = true ∧
      ends (driverStep { inNop with speed := speed }) (fun t => t.speed == speed) = true := by
  decide

theorem witness_TotalTicksAccumulate :
    ends (driverStep { inNop with totalTicks := 0xFFFFFFFFFFFFFFFE }) (fun _ => true) = true := by
  decide

/-- A running step, whose instruction costs at most 1, and a halted one. -/
theorem witness_StepTicksAreBounded :
    ends (driverStep inNop) (fun _ => true) = true ∧
    (∀ u, exec (decodeOpcode (memRead inNop inNop.pc)) { inNop with
        regs := { inNop.regs with pc := inNop.pc + 1 }, ime := inNop.ime || inNop.imePending, imePending := false } =
      .next u → u.ticks ≤ 1) ∧
    ¬Running { inNop with halt := true } ∧
      ends (driverStep { inNop with halt := true }) (fun t => t.regs == inNop.regs) = true := by
  refine ⟨by decide, ?_, by decide, by decide⟩
  intro u h
  cases h
  decide

/-- NOP at cost 0. -/
theorem witness_ZeroCostIsAFault :
    let s : State := { inNop with params := { monoParams with coreCost := { defaultCoreCost with nop := 0 } } };
    s.fault = none ∧ Running s ∧
      ends (exec (decodeOpcode (memRead s s.pc)) { s with
        regs := { s.regs with pc := s.pc + 1 }, ime := s.ime || s.imePending, imePending := false })
        (fun u => u.ticks == 0) = true := by
  decide

theorem witness_ControllerNeedsImeOrHalt :
    ends (driverStep inNop) (fun _ => true) = true ∧
    (let s := { start 0x0152 [] false 0x01 0x01 with stop := true }; s.ime = false ∧ s.halt = false) ∧
    (let s := start 0x0101 [] true 0x1F 0x00; s.intFlag &&& s.intEnable = 0) := by
  decide

/-- Every source, with every higher bit pending too. -/
theorem witness_DispatchTakesTheLowestSource : ∀ src ∈ [InterruptSource.vblank, .displayStatus, .timer, .serial, .joypad],
    let s := start 0x0101 [] true (0xFF <<< interruptBit src) 0xFF;
    s.ime = true ∧ (s.intFlag &&& s.intEnable).getLsbD (interruptBit src) = true ∧
      ∀ j < interruptBit src, (s.intFlag &&& s.intEnable).getLsbD j = false := by
  decide

theorem witness_DispatchFrame :
    (withSp 0xFFFE).sp - 1 ≠ 0xFF0F ∧ (withSp 0xFFFE).sp - 2 ≠ 0xFF0F ∧ Memory.wf (withSp 0xFFFE).mem ∧
      busTarget ((withSp 0xFFFE).sp - 1) = .ext ∧ busTarget ((withSp 0xFFFE).sp - 2) = .ext ∧
      (0xC000 : Word) ≠ (withSp 0xFFFE).sp - 1 ∧ (0xC000 : Word) ≠ (withSp 0xFFFE).sp - 2 := by
  decide

/-- A NOP whose step takes the timer's interrupt. -/
theorem witness_IfBitsClearOnlyByDispatch :
    let s := start 0x0101 [] true 0x04 0x04;
    opcodeClass (memRead s s.pc) ≠ .delegated ∧ s.intFlag.getLsbD 2 = true ∧
      ends (driverStep s) (fun t => !t.intFlag.getLsbD 2) = true := by
  decide

theorem witness_VectorTable : 5 ≤ 5 := by decide

theorem witness_BadInterruptIndexFaults :
    (start 0x0101 [] true 0x20 0x20).ime = true ∧
      ({ start 0x0101 [] false 0xE0 0xE0 with halt := true } : State).halt = true := by
  decide

theorem witness_WakeWithoutService :
    let s := { start 0x0201 [] false 0xF0 0xFF with halt := true };
    s.ime = false ∧ s.halt = true ∧ (s.intFlag &&& s.intEnable).getLsbD (interruptBit .joypad) = true ∧
      (∀ j < interruptBit .joypad, (s.intFlag &&& s.intEnable).getLsbD j = false) ∧ s.fault = none ∧ s.stop = false ∧
      s.imePending = false := by
  decide

/-- P1: EI, with vblank pending, and the NOP after it. -/
theorem witness_EiDelaysByOneInstruction :
    let s := start 0x0100 [(0x0100, 0xFB)] false 0x01 0x01;
    (s.fault = none ∧ Running s ∧ s.ime = false ∧ s.imePending = false ∧ memRead s s.pc = 0xFB ∧
      s.params.coreCost.ei ≠ 0) ∧
    ends (driverStep s) (fun t =>
      ends (exec (decodeOpcode (memRead t t.pc)) { t with
          regs := { t.regs with pc := t.pc + 1 }, ime := true, imePending := false }) fun u =>
        u.ticks != 0 && u.ime && lowestSet (u.intFlag &&& u.intEnable) == some (interruptBit .vblank)) = true := by
  decide

theorem witness_ResetRegisters : monoParams.target = .mono ∧ colorParams.target = .color ∧
    monoParams.initRegs = defaultInitRegs .mono ∧ colorParams.initRegs = defaultInitRegs .color :=
  ⟨rfl, rfl, rfl, rfl⟩

theorem witness_ResetControlFields : start 0 [] false 0 0 = { State.resetFor monoParams [] with
    regs := { defaultInitRegs .mono with pc := 0 } } := rfl

/-- A platform address with a byte, and one with none; the bytes at IF's address and beyond the space are left out. -/
theorem witness_ResetMemory :
    busTarget 0x0100 = .ext ∧ busTarget 0xFFFE = .ext ∧
    (let s := State.resetFor monoParams [(0x0100, 0x76), (0xFF0F, 0x11), (0x10000, 0x22), (0x0100, 0x33)];
      s.mem = [(0x0100, 0x76)] ∧ memRead s 0xFFFE = unlistedByte) := by
  decide

theorem witness_StepKeepsSoundness : Sound inNop ∧ ∃ t, step inNop = .next t := ⟨by decide, _, rfl⟩

theorem witness_HaltAndStopNeverBothSet :
    ∃ t, SafeRun 1 { State.resetFor monoParams [(0x0100, 0x76)] with hostCalls := [.frames] } t :=
  ⟨_, rfl⟩

theorem witness_RunsKeepTheParameters : ∃ t, SafeRun 1 inNop t := ⟨_, rfl⟩

theorem witness_OnlyTheExecutorWritesGeneralRegisters :
    ends (driverStep inNop) (fun _ => true) = true ∧ opcodeClass (memRead inNop inNop.pc) ≠ .delegated := by
  decide

/-- A step that faults; a fault set in a frame; a fault set with `frame()` waiting. -/
theorem witness_FaultsAreSticky :
    faultOf (driverStep (start 0x0100 [(0x0100, 0xD3)] false 0 0)) = some (.undefinedOpcode 0xD3) ∧
    (let u : State := { inNop with fault := some (.zeroCostStep 0x01) };
      u.fault = some (.zeroCostStep 0x01) ∧ 0 < (beginFrame u).budget ∧ InFrame u) ∧
    (let u : State := { start 0x0101 [] false 0 0 with fault := some (.zeroCostStep 0x01), hostCalls := [.frame] };
      ∃ rest, u.hostCalls = .frame :: rest) :=
  ⟨by decide, by decide, [], rfl⟩

theorem witness_StoppedForEver :
    (inNop.halt = false ∧ inNop.ime = false ∧ inNop.imePending = false ∧ inNop.params.target = .mono) ∧
    hung.fault = none ∧ HungStopped hung ∧ InFrame hung ∧
      HungStopped { hung with params := colorParams } ∧ HungStopped { hung with switchPending := true } := by
  decide

/-- A leftover so low that no step runs; FR2's entry; a pass that goes on; the pass that spends the budget; a fault. -/
theorem witness_FrameFollowsItsBudget :
    (start 0 [] false 0 0).params.frameTicks = 10 ∧
    (let s : State := { start 0x0100 [] false 0 0 with budget := -10 }; s.budget + (s.params.frameTicks : Nat) ≤ 0 ∧ s.budget ≤ 0) ∧
    (let s : State := { start 0x0100 [] false 0 0 with budget := -2 }; 0 < s.budget + (s.params.frameTicks : Nat)) ∧
    ends (driverStep inNop) (fun u => decide (0 < inNop.budget - u.ticks)) = true ∧
    (let s : State := { inNop with budget := 4 }; 0 < s.budget ∧
      ends (driverStep s) (fun u => decide (s.budget - u.ticks ≤ 0)) = true) ∧
    faultOf (driverStep { start 0x0100 [(0x0100, 0xD3)] false 0 0 with budget := 10 }) =
      some (.undefinedOpcode 0xD3) := by
  decide

theorem witness_StepIsAPassOrAHostCall :
    inNop.fault = none ∧ InFrame inNop ∧ ends (driverStep inNop) (fun _ => true) = true ∧
    faultOf (driverStep { start 0x0100 [(0x0100, 0xD3)] false 0 0 with budget := 1 }) =
      some (.undefinedOpcode 0xD3) ∧
    (let s := { start 0x0100 [] false 0 0 with hostCalls := [.keydown .a] };
      s.fault = none ∧ ¬InFrame s ∧ s.hostCalls = .keydown .a :: []) ∧
    (start 0x0100 [] false 0 0).hostCalls = [] := by
  decide

theorem witness_TicksRunAreBudgetSpent :
    (∃ t, frameLoop 1 { inNop with budget := 4 } = .next t) ∧
      (∃ t, frame 1 { inNop with budget := -9 } = .next t) ∧ InFrame inNop ∧ ∃ t, step inNop = .next t :=
  ⟨⟨_, rfl⟩, ⟨_, rfl⟩, by decide, _, rfl⟩

theorem witness_FrameEndsOrFaults :
    (start 0x0100 [] false 0 0).budget ≤ 0 ∧ (((start 0x0100 [] false 0 0).params.frameTicks : Nat) + 1) / 2 ≤ 5 := by
  decide

theorem witness_ImageHandsOutTheBuffer :
    ends (driverStep inNop) (fun _ => true) = true ∧ HostCall.frames ≠ .image := by
  decide

/-- A bit set, and a bit no peripheral may change. -/
theorem witness_PeripheralsOnlyRaise : (start 0 [] false 0x04 0).intFlag.getLsbD 2 = true ∧ 3 ≤ 3 := by decide

theorem witness_KeydownClearsAndRaises :
    let s := { start 0x0201 [] false 0 0x10 with halt := true };
    s.fault = none ∧ s.halt = true ∧ s.intFlag &&& s.intEnable = 0 ∧ s.intEnable.getLsbD 4 = true := by
  decide

theorem witness_HostWaitsForTheFrame :
    InFrame { inNop with hostCalls := [.keydown .a] } ∧
      ∃ t, step { inNop with hostCalls := [.keydown .a] } = .next t :=
  ⟨by decide, _, rfl⟩

/-! ## Each word placed after reset is what the first step runs -/

theorem test_withFetchWord_halt : ∃ t, step (State.reset.withFetchWord 8 0x76) = .next t ∧ t.halt = true := by
  refine ⟨_, rfl, ?_⟩
  rfl

theorem test_withFetchWord_illegal : step (State.reset.withFetchWord 8 0xED) = .fault (.undefinedOpcode 0xED) := by
  rfl

end Sys2Proof.Tests
end

section
/-! PROOF. Registers and pairs: what a register reads after a write, and what follows for the pairs
(10_state.md R15 to R17). -/

namespace Sys2Proof.Machine

/-- A write to a register changes it alone; F keeps its low four bits 0. -/
theorem readReg8_writeReg8 (s : State) (r r' : Reg8) (v : Byte) :
    (s.writeReg8 r v).readReg8 r' = if r' = r then (if r = .f then flagBits v else v) else s.readReg8 r' := by
  cases r <;> cases r' <;> rfl

theorem readReg8_writeReg8_same (s : State) {r : Reg8} (h : r ≠ .f) (v : Byte) :
    (s.writeReg8 r v).readReg8 r = v := by
  rw [readReg8_writeReg8, if_pos rfl, if_neg h]

theorem readReg8_writeReg8_of_ne (s : State) {r r' : Reg8} (h : r' ≠ r) (v : Byte) :
    (s.writeReg8 r v).readReg8 r' = s.readReg8 r' := by
  rw [readReg8_writeReg8, if_neg h]

theorem Reg16High_ne_Reg16Low (rr : Reg16) : Reg16High rr ≠ Reg16Low rr := by
  cases rr <;> decide

theorem Reg16High_ne_f (rr : Reg16) : Reg16High rr ≠ .f := by
  cases rr <;> decide

/-- F is in no pair but AF. -/
theorem Reg16Low_ne_f {rr : Reg16} (h : rr ≠ .af) : Reg16Low rr ≠ .f := by
  cases rr
  case af => exact absurd rfl h
  all_goals decide

theorem joinBytes_highByte_lowByte (v : Word) : joinBytes (highByte v) (lowByte v) = v :=
  BitVec.extractLsb'_append_extractLsb'

/-- The write of the low byte keeps the high one, since the two registers of a pair differ; each then reads back,
and the two bytes join to the word. -/
theorem readReg16_writeReg16_same (s : State) {rr : Reg16} (h : rr ≠ .af) (v : Word) :
    (s.writeReg16 rr v).readReg16 rr = v := by
  have hhigh : (s.writeReg16 rr v).readReg8 (Reg16High rr) = highByte v := by
    rw [State.writeReg16, readReg8_writeReg8_of_ne _ (Reg16High_ne_Reg16Low rr),
      readReg8_writeReg8_same _ (Reg16High_ne_f rr)]
  have hlow : (s.writeReg16 rr v).readReg8 (Reg16Low rr) = lowByte v :=
    readReg8_writeReg8_same _ (Reg16Low_ne_f h) _
  rw [State.readReg16, hhigh, hlow, joinBytes_highByte_lowByte]

/-- Settles O4: by definition a pair's read and write are those of its two registers, and a pair without F reads
back what was written. -/
theorem pairsAliasTheirRegisters : Obligations.PairsAliasTheirRegisters := by
  intro s v
  exact ⟨⟨rfl, rfl, rfl, rfl⟩, rfl, rfl, rfl, rfl, fun _ h => readReg16_writeReg16_same s h v⟩

end Sys2Proof.Machine
end

section
/-! PROOF. The five interrupt vectors (30_encoding.md R61). -/

namespace Sys2Proof.Machine

/-- Settles O34: a source and its bit name each other, an index from 5 on names none, and the five vectors are
computed from the formula. -/
theorem vectorTable : Obligations.VectorTable := by
  refine ⟨fun src => ⟨interruptSourceAt_eq_some.2 rfl, rfl⟩, ?_, ?_, ?_, ?_, ?_,
    fun i => interruptSourceAt_eq_none.2⟩
  all_goals decide

end Sys2Proof.Machine
end

section
/-! PROOF. The bytes that fault: what the decoder makes of an illegal and of a delegated byte, and how a fault of the
instruction ends the driver step (30_encoding.md R58, R59, 41_executor_contract.md R77). -/

namespace Sys2Proof.Machine

/-! ### The decoder on the two parts of the map outside the core -/

/-- The rows of the decoder's table are those of the core and the illegal bytes, in that order. -/
theorem opcodeRows_map_fst : opcodeRows.map Prod.fst = coreOpcodes ++ illegalOpcodes := rfl

theorem opcodeClass_eq_delegated {op : Byte} :
    opcodeClass op = .delegated ↔ op ∉ coreOpcodes ++ illegalOpcodes := by
  unfold opcodeClass
  split
  · simp_all
  · split <;> simp_all

/-- A delegated byte has no row in the decoder's table (30_encoding.md R58). -/
theorem decodeOpcode_delegated {op : Byte} (h : opcodeClass op = .delegated) :
    decodeOpcode op = .delegated op := by
  rw [opcodeClass_eq_delegated, ← opcodeRows_map_fst] at h
  have hnone : opcodeRows.lookup op = none := by
    rw [List.lookup_eq_none_iff]
    intro row hrow
    have hne : op ≠ row.1 := fun heq => h (heq ▸ List.mem_map_of_mem hrow)
    simpa using hne
  rw [decodeOpcode, hnone, Option.getD_none]

/-- An illegal byte decodes to the illegal instruction of that byte (30_encoding.md R59). -/
theorem decodeOpcode_illegal : ∀ op ∈ illegalOpcodes,
    (decodeOpcode op).opcodeClass = .illegal ∧ (decodeOpcode op).opcode = op := by
  decide

/-! ### The meanings that fault -/

/-- Every arm of an illegal instruction raises the fault of its own byte. -/
theorem exec_illegal {i : Instr} (h : i.opcodeClass = .illegal) (s : State) :
    exec i s = .fault (.undefinedOpcode i.opcode) := by
  cases i
  case nop | stop | halt | reti | di | ei | delegated => cases h
  all_goals rfl

/-- A byte with no tree runs the tree that only faults (log 3). -/
theorem exec_delegated_missing {op : Byte} {s : State} (hop : op ≠ 0xCB)
    (hnone : s.params.executor.ops.lookup op = none) :
    exec (.delegated op) s = .fault (.undefinedOpcode op) := by
  have htree : delegatedTree op s = .fault := by
    rw [delegatedTree, executorProgram, if_neg hop, hnone, Option.getD_none]
  rw [exec, execDelegated, htree, runExecTree]

/-! ### The driver step of a faulting instruction -/

/-- The state an instruction runs in: the latch resolved and PC past the opcode byte (42_driver_step.md R82, R83). -/
theorem resolveLatch_setPc (s : State) (v : Word) :
    (resolveLatch s).setPc v =
      { s with regs := { s.regs with pc := v }, ime := s.ime || s.imePending, imePending := false } := by
  rw [resolveLatch_eq]
  rfl

/-- A fault of the instruction decoded at PC is the outcome of the driver step. -/
theorem driverStep_of_exec_fault {s : State} {f : Fault} (hf : s.fault = none) (hr : Running s)
    (he : exec (decodeOpcode (memRead s s.pc)) { s with
      regs := { s.regs with pc := s.pc + 1 }, ime := s.ime || s.imePending, imePending := false } = .fault f) :
    driverStep s = .fault f := by
  have hr' : Running (resolveLatch s) := by simpa [Running] using hr
  rw [driverStep_eq hf, partTwo_running hr', runInstruction_resolveLatch, resolveLatch_setPc, he]
  rfl

/-- Settles O21: an illegal instruction and a byte with no tree fault in `exec`, and since an illegal byte decodes to
its illegal instruction and a delegated byte to itself, the driver step that fetches one ends in the fault of `exec`. -/
theorem undefinedBytesFault : Obligations.UndefinedBytesFault := by
  refine ⟨fun _ s h => exec_illegal h s, fun _ _ => exec_delegated_missing, ?_⟩
  rintro _ s hf hr rfl (hill | ⟨hdel, he⟩)
  · obtain ⟨hclass, hop⟩ := decodeOpcode_illegal _ hill
    refine driverStep_of_exec_fault hf hr ?_
    rw [exec_illegal hclass, hop]
  · refine driverStep_of_exec_fault hf hr ?_
    rw [decodeOpcode_delegated hdel, he]

end Sys2Proof.Machine
end

section
/-! PROOF. The driver step of an instruction that answers a next state, and NOP (40_cpu_state_machine.md R67,
42_driver_step.md R83). -/

namespace Sys2Proof.Machine

/-- An instruction that charges a cost leaves the rest of the driver step to the controller, the scaling and the
tick counter. -/
theorem driverStep_of_exec_next {s t : State} (hf : s.fault = none) (hr : Running s)
    (he : exec (decodeOpcode (memRead s s.pc)) { s with
      regs := { s.regs with pc := s.pc + 1 }, ime := s.ime || s.imePending, imePending := false } = .next t)
    (ht : t.ticks ≠ 0) :
    driverStep s = bindNext (interruptController t) fun u => .next (countTicks (scaleTicks u)) := by
  have hr' : Running (resolveLatch s) := by simpa [Running] using hr
  rw [driverStep_eq hf, partTwo_running hr', runInstruction_resolveLatch, resolveLatch_setPc, he, bindNext_next,
    if_neg ht, bindNext_next]

/-- With nothing pending and enabled after the instruction, its state is scaled and counted as it stands. -/
theorem driverStep_of_exec_next_idle {s t : State} (hf : s.fault = none) (hr : Running s)
    (he : exec (decodeOpcode (memRead s s.pc)) { s with
      regs := { s.regs with pc := s.pc + 1 }, ime := s.ime || s.imePending, imePending := false } = .next t)
    (ht : t.ticks ≠ 0) (hidle : t.intFlag &&& t.intEnable = 0) :
    driverStep s = .next (countTicks (scaleTicks t)) := by
  rw [driverStep_of_exec_next hf hr he ht, interruptController_idle hidle, bindNext_next]

theorem decodeOpcode_nop : decodeOpcode 0x00 = .nop := rfl

/-- NOP writes its cost into `ticks` and no other field. -/
theorem exec_nop (s : State) : exec .nop s = .next { s with ticks := s.params.coreCost.nop } := rfl

/-- Settles O11: the driver step that fetches 0x00 runs NOP, whose cost is not 0 and which leaves IF and IE, so the
controller is idle and only the scaling and the tick counter follow. -/
theorem nopOnlyCharges : Obligations.NopOnlyCharges := by
  refine fun s => ⟨exec_nop s, fun hf hr hop hcost hidle => ?_⟩
  have he := exec_nop { s with
    regs := { s.regs with pc := s.pc + 1 }, ime := s.ime || s.imePending, imePending := false }
  rw [← decodeOpcode_nop, ← hop] at he
  exact driverStep_of_exec_next_idle hf hr he hcost hidle

end Sys2Proof.Machine
end

section
/-! PROOF. The four core registers on the bus: what each address reads, and the one field a store to it writes
(20_memory.md R45, 42_driver_step.md R91, 60_exceptions.md R121, R122). -/

namespace Sys2Proof.Machine

section

variable (s : State) (v : Byte)

/-! ### The bus at each address -/

theorem memRead_intFlag : memRead s 0xFF0F = s.intFlag := rfl
theorem memRead_intEnable : memRead s 0xFFFF = s.intEnable := rfl
theorem memRead_joypad : memRead s 0xFF00 = s.joypRead := rfl
theorem memRead_key1 : memRead s 0xFF4D = s.key1Read := rfl

theorem memWrite_intFlag_eq : memWrite s 0xFF0F v = { s with intFlag := v } := rfl
theorem memWrite_intEnable_eq : memWrite s 0xFFFF v = { s with intEnable := v } := rfl
theorem memWrite_joypad : memWrite s 0xFF00 v = s.joypWrite v := rfl
theorem memWrite_key1 : memWrite s 0xFF4D v = s.key1Write v := rfl

/-! ### The joypad register -/

theorem joypRead_buttons {s : State} (h : s.select = .buttons) : s.joypRead = s.buttons.setWidth 8 := by
  rw [State.joypRead, h]

theorem joypRead_directions {s : State} (h : s.select = .directions) :
    s.joypRead = s.directions.setWidth 8 := by
  rw [State.joypRead, h]

theorem joypRead_both {s : State} (h : s.select = .both) : s.joypRead = s.params.joypMultiValue := by
  rw [State.joypRead, h]

/-- Only `v[5:4]` selects a column (30_encoding.md R63). -/
theorem joypColumn_congr {v w : Byte} (h : v.extractLsb' 4 2 = w.extractLsb' 4 2) :
    joypColumn v = joypColumn w := by
  have h4 : v.getLsbD 4 = w.getLsbD 4 := by simpa using congrArg (BitVec.getLsbD · 0) h
  have h5 : v.getLsbD 5 = w.getLsbD 5 := by simpa using congrArg (BitVec.getLsbD · 1) h
  rw [joypColumn, joypColumn, h4, h5]

/-- A write whose select code is that of a byte `w` with a column writes that column alone. -/
theorem joypWrite_column {v w : Byte} {c : JoypSelect} (h : v.extractLsb' 4 2 = w.extractLsb' 4 2)
    (hw : joypColumn w = some c) : s.joypWrite v = { s with select := c } := by
  rw [State.joypWrite, joypColumn_congr h, hw]
  rfl

/-- A write with the no-op code of a byte `w` leaves the state. -/
theorem joypWrite_noop {v w : Byte} (h : v.extractLsb' 4 2 = w.extractLsb' 4 2) (hw : joypColumn w = none) :
    s.joypWrite v = s := by
  rw [State.joypWrite, joypColumn_congr h, hw]

/-! ### KEY1 -/

theorem key1Read_color {s : State} (h : s.params.target = .color) :
    s.key1Read =
      (if s.speed = .double then 0x80 else 0x00) ||| 0x7E ||| (if s.switchPending = true then 0x01 else 0x00) := by
  rw [State.key1Read, h]
  cases s.speed <;> cases s.switchPending <;> rfl

theorem key1Read_mono {s : State} (h : s.params.target = .mono) : s.key1Read = 0xFF := by
  rw [State.key1Read, h]

theorem key1Write_color {s : State} (h : s.params.target = .color) :
    s.key1Write v = { s with switchPending := v.getLsbD 0 } := by
  rw [State.key1Write, h]
  rfl

theorem key1Write_mono {s : State} (h : s.params.target = .mono) : s.key1Write v = s := by
  rw [State.key1Write, h]

end

/-- Settles O6: each address reaches its register, the joypad column depends on the select code alone, so that one
byte stands for each code, and KEY1 is there on `Color` only. -/
theorem coreRegistersOnTheBus : Obligations.CoreRegistersOnTheBus := by
  intro s v
  refine ⟨⟨memRead_intFlag s, memWrite_intFlag_eq s v⟩, ⟨memRead_intEnable s, memWrite_intEnable_eq s v⟩, ?_⟩
  rw [memRead_joypad, memWrite_joypad, memRead_key1, memWrite_key1]
  refine ⟨⟨joypRead_buttons, joypRead_directions, joypRead_both⟩, ⟨fun h => ?_, fun h => ?_, fun h => ?_, fun h => ?_⟩,
    ⟨key1Read_color, key1Read_mono⟩, key1Write_color v, key1Write_mono v⟩
  · exact joypWrite_column s (w := 0x10) h rfl
  · exact joypWrite_column s (w := 0x20) h rfl
  · exact joypWrite_column s (w := 0x00) h rfl
  · exact joypWrite_noop s (w := 0x30) h rfl

end Sys2Proof.Machine
end

section
/-! PROOF. Part 2 of a CPU that is not Running, and the driver step in which the controller has nothing to do
(42_driver_step.md R84, R85). -/

namespace Sys2Proof.Machine

section

variable {s t : State}

theorem mustSwitch_iff :
    mustSwitch s = true ↔ s.stop = true ∧ s.switchPending = true ∧ s.params.target = .color := by
  simp [mustSwitch, and_assoc]

/-- A stopped CPU is not Running. -/
theorem not_running_of_mustSwitch (h : mustSwitch s = true) : ¬Running s := by
  intro hr
  obtain ⟨hstop, -, -⟩ := mustSwitch_iff.1 h
  simp [hr.2] at hstop

@[simp] theorem mustSwitch_resolveLatch (s : State) : mustSwitch (resolveLatch s) = mustSwitch s := by
  simp [mustSwitch]

/-- The latch is no part of the run mode. -/
theorem running_resolveLatch : Running (resolveLatch s) ↔ Running s := by
  simp [Running]

/-- The speed switch as one update of the state (42_driver_step.md R84). -/
theorem switchSpeed_eq (s : State) :
    switchSpeed s = { s with speed := flipSpeed s.speed, switchPending := false, stop := false, ticks := 1 } := rfl

theorem flipSpeed_eq (v : Speed) : flipSpeed v = if v = .normal then .double else .normal := by
  cases v <;> rfl

/-- With nothing pending and enabled after part 2, its state is scaled and counted as it stands. -/
theorem driverStep_of_partTwo_idle (hf : s.fault = none) (hp : partTwo (resolveLatch s) = .next t)
    (hidle : t.intFlag &&& t.intEnable = 0) : driverStep s = .next (countTicks (scaleTicks t)) := by
  rw [driverStep_eq hf, hp, bindNext_next, interruptController_idle hidle, bindNext_next]

/-- One base cycle counts as the multiplier of the mode (42_driver_step.md R87). -/
theorem countTicks_scaleTicks_one (h : t.ticks = 1) :
    countTicks (scaleTicks t) = { t with
      ticks := speedMultiplier t.speed, totalTicks := t.totalTicks + BitVec.ofNat 64 (speedMultiplier t.speed) } := by
  rw [scaleTicks, h, Nat.one_mul]
  rfl

/-- The driver step of a speed switch: its one base cycle counts in the new mode. -/
theorem driverStep_switch (hf : s.fault = none) (hm : mustSwitch s = true) (hidle : s.intFlag &&& s.intEnable = 0) :
    driverStep s = .next { s with
      speed := flipSpeed s.speed, switchPending := false, stop := false, ime := s.ime || s.imePending,
      imePending := false, ticks := speedMultiplier (flipSpeed s.speed),
      totalTicks := s.totalTicks + BitVec.ofNat 64 (speedMultiplier (flipSpeed s.speed)) } := by
  have hm' : mustSwitch (resolveLatch s) = true := by rwa [mustSwitch_resolveLatch]
  rw [driverStep_of_partTwo_idle hf (partTwo_switch (not_running_of_mustSwitch hm') hm') (by simpa using hidle),
    countTicks_scaleTicks_one rfl, resolveLatch_eq]
  rfl

/-- The driver step of an idle cycle: its one base cycle counts in the mode in force. -/
theorem driverStep_idle (hf : s.fault = none) (hr : ¬Running s) (hm : mustSwitch s = false)
    (hidle : s.intFlag &&& s.intEnable = 0) :
    driverStep s = .next { s with
      ime := s.ime || s.imePending, imePending := false, ticks := speedMultiplier s.speed,
      totalTicks := s.totalTicks + BitVec.ofNat 64 (speedMultiplier s.speed) } := by
  have hr' : ¬Running (resolveLatch s) := by rwa [running_resolveLatch]
  have hm' : mustSwitch (resolveLatch s) = false := by rwa [mustSwitch_resolveLatch]
  rw [driverStep_of_partTwo_idle hf (partTwo_idle hr' hm') (by simpa using hidle),
    countTicks_scaleTicks_one rfl, resolveLatch_eq]
  rfl

end

/-- Settles O24: part 2 is the switch, and in the driver step the controller is idle, so only the scaling by the new
mode and the tick counter follow. -/
theorem speedSwitchStep : Obligations.SpeedSwitchStep := by
  intro s _ hstop hpend htarget
  have hm : mustSwitch s = true := mustSwitch_iff.2 ⟨hstop, hpend, htarget⟩
  refine ⟨?_, fun hf hidle => ⟨fun hs => ?_, fun hs => ?_⟩⟩
  · rw [partTwo_switch (not_running_of_mustSwitch hm) hm, switchSpeed_eq, flipSpeed_eq]
  · rw [driverStep_switch hf hm hidle, hs]
    rfl
  · rw [driverStep_switch hf hm hidle, hs]
    rfl

/-- Settles O25: part 2 is the idle cycle, and in the driver step the controller is idle too. -/
theorem idleStepOnlyCharges : Obligations.IdleStepOnlyCharges := by
  intro s hr hnot
  have hm : mustSwitch s = false := by rwa [← mustSwitch_iff, Bool.not_eq_true] at hnot
  exact ⟨partTwo_idle hr hm, fun hf hidle => driverStep_idle hf hr hm hidle⟩

end Sys2Proof.Machine
end

section
/-! PROOF. The ticks of a driver step: the base cycles part 2 and the controller charge, scaled and counted
(42_driver_step.md R87, R88, 70_reset_and_hazards.md R140). -/

namespace Sys2Proof.Machine

section

variable {s t u v : State}

/-- IME = 1 with a pending enabled bit, where a controller that answers a next state has taken an interrupt
(60_exceptions.md R104, R108). -/
abbrev TakesInterrupt (u : State) : Prop := u.ime = true ∧ u.intFlag &&& u.intEnable ≠ 0

/-- The controller charges one base cycle exactly when it takes an interrupt (60_exceptions.md R108, R109). -/
theorem interruptController_ticks (h : interruptController u = .next v) :
    v.ticks = if TakesInterrupt u then u.ticks + 1 else u.ticks := by
  rcases interruptController_next h with ⟨rfl, hoff⟩ | ⟨src, hl, ⟨hi, rfl⟩ | ⟨hi, -, rfl⟩⟩
  · have hno : ¬TakesInterrupt v := by
      rintro ⟨hi, hpend⟩
      rcases hoff with ⟨hi', -⟩ | hzero
      · simp [hi] at hi'
      · exact hpend hzero
    rw [if_neg hno]
  · have hpend : u.intFlag &&& u.intEnable ≠ 0 := fun hzero => by
      simp [lowestSet_eq_none.2 hzero] at hl
    rw [if_pos ⟨hi, hpend⟩, dispatchInterrupt_ticks]
  · rw [if_neg (by simp [hi]), wake_ticks]

/-- The controller leaves the clock mode. -/
theorem interruptController_speed (h : interruptController u = .next v) : v.speed = u.speed :=
  (interruptController_same h).speed

/-- The ticks of a driver step: the base cycles of part 2 and of the controller, times the multiplier of the mode at
the end of the step. -/
theorem driverStep_ticks (h : driverStep s = .next t) (hu : partTwo (resolveLatch s) = .next u) :
    t.ticks = (if TakesInterrupt u then u.ticks + 1 else u.ticks) * speedMultiplier t.speed := by
  obtain ⟨-, u', v, hu', hv, rfl⟩ := driverStep_next h
  cases hu.symm.trans hu'
  rw [countTicks_ticks, scaleTicks_ticks, interruptController_ticks hv, countTicks_speed, scaleTicks_speed]

theorem speedMultiplier_pos (m : Speed) : 0 < speedMultiplier m := by
  cases m <;> decide

end

/-- Settles O26: the multiplier is 4 or 2, and, not being 0, it tells the extra base cycle of the controller from
none. -/
theorem ticksAreScaledBaseCycles : Obligations.TicksAreScaledBaseCycles := by
  intro s t u h hu
  have ht := driverStep_ticks h hu
  have hcases : t.ticks = u.ticks * speedMultiplier t.speed ∨ t.ticks = (u.ticks + 1) * speedMultiplier t.speed := by
    by_cases hi : TakesInterrupt u
    · exact .inr (by rwa [if_pos hi] at ht)
    · exact .inl (by rwa [if_neg hi] at ht)
  refine ⟨fun hs => by rwa [hs] at hcases, fun hs => by rwa [hs] at hcases, fun heq => ?_, fun hi => ?_⟩
  · by_contra hno
    rw [heq, if_neg hno] at ht
    exact Nat.succ_ne_self _ (Nat.eq_of_mul_eq_mul_right (speedMultiplier_pos _) ht)
  · rwa [if_pos hi] at ht

/-- Settles O27: the counter's 64-bit sum is the sum modulo 2^64. -/
theorem totalTicksAccumulate : Obligations.TotalTicksAccumulate := by
  intro s t h
  rw [(driverStep_frame h).totalTicks, BitVec.toNat_add, BitVec.toNat_ofNat, Nat.add_mod_mod]

end Sys2Proof.Machine
end

section
/-! PROOF. The whole of a driver step: the latch first, then the decoded instruction and what follows it
(42_driver_step.md R82, R83, R89). -/

namespace Sys2Proof.Machine

/-- A resolved latch stays resolved. -/
theorem resolveLatch_resolveLatch (s : State) : resolveLatch (resolveLatch s) = resolveLatch s := by
  rw [resolveLatch, resolveLatch_imePending]
  rfl

/-- Settles O23: a fault-free step starts by resolving the latch, which changes nothing the second time, and a faulted
block answers its fault from either state. -/
theorem latchResolvesFirst : Obligations.LatchResolvesFirst := by
  intro s
  rw [← resolveLatch_eq]
  cases hf : s.fault with
  | none => rw [driverStep_eq hf, driverStep_eq (by simpa using hf), resolveLatch_resolveLatch]
  | some f => rw [driverStep_faulted hf, driverStep_faulted (by simpa using hf)]

/-- Going on twice is going on with both. -/
theorem bindNext_assoc (r : Result) (k l : State → Result) :
    bindNext (bindNext r k) l = bindNext r fun t => bindNext (k t) l := by
  cases r <;> rfl

/-- The driver step from Running, whatever the instruction decoded at PC answers. -/
theorem driverStep_running {s : State} (hf : s.fault = none) (hr : Running s) :
    driverStep s =
      bindNext (exec (decodeOpcode (memRead s s.pc)) { s with
          regs := { s.regs with pc := s.pc + 1 }, ime := s.ime || s.imePending, imePending := false }) fun u =>
        if u.ticks = 0 then .fault (.zeroCostStep (memRead s s.pc))
        else bindNext (interruptController u) fun v => .next (countTicks (scaleTicks v)) := by
  rw [driverStep_eq hf, partTwo_running (running_resolveLatch.2 hr), runInstruction_resolveLatch, resolveLatch_setPc,
    bindNext_assoc]
  congr 1
  funext u
  split <;> rfl

/-- Settles O22: a step in a frame is the driver step followed by the timer, the display and the budget, which a fault
of the instruction, of its cost or of the controller cuts short. -/
theorem stepRunsTheDecodedInstruction : Obligations.StepRunsTheDecodedInstruction := by
  intro s i rest hf hframe hr hdec
  obtain ⟨rfl, -⟩ : decodeOpcode (memRead s s.pc) = i ∧ [memRead s (s.pc + 1)] = rest := by
    simpa [decode] using hdec
  rw [step_inFrame hf hframe, frameIteration, driverStep_running hf hr, bindNext_assoc]
  congr 1
  funext u
  split
  · rfl
  · rw [bindNext_assoc]
    rfl

end Sys2Proof.Machine
end

section
/-! PROOF. The loop of `frame()` pass by pass, and the count `frames()` drains (43_frame_scheduler.md R93, R97). -/

namespace Sys2Proof.Machine

section

variable {s u : State}

/-- While the budget is positive the frame goes on, with no count. -/
theorem finishIfSpent_of_pos (hb : 0 < s.budget) : finishIfSpent s = s := by
  rw [finishIfSpent, if_neg (Int.not_le.2 hb)]
  rfl

/-- A budget that is not positive ends the frame, with one count. -/
theorem finishIfSpent_of_spent (hb : s.budget ≤ 0) :
    finishIfSpent s = { s with frameCount := s.frameCount + 1 } := by
  rw [finishIfSpent, if_pos hb]
  rfl

/-- The entry of `frame()`: the budget grows by `FRAME_TICKS`, and the loop may be over at once. -/
theorem beginFrame_eq (s : State) :
    beginFrame s = finishIfSpent { s with budget := s.budget + (s.params.frameTicks : Nat) } := rfl

/-- The loop runs no pass once the budget is not positive. -/
theorem frameLoop_of_spent (n : Nat) (hb : s.budget ≤ 0) : frameLoop n s = .next s := by
  cases n with
  | zero => rfl
  | succ n => rw [frameLoop, if_neg (Int.not_lt.2 hb)]

/-- The loop runs one pass and goes on while the budget is positive. -/
theorem frameLoop_succ_of_pos (n : Nat) (hb : 0 < s.budget) :
    frameLoop (n + 1) s = bindNext (frameIteration s) (frameLoop n) := by
  rw [frameLoop, if_pos hb]

/-- A pass whose driver step completes: the timer and the display leave the step's ticks and its budget, so the pass
charges the one to the other. -/
theorem frameIteration_of_next (h : driverStep s = .next u) :
    frameIteration s =
      .next (finishIfSpent { displayStep (timerStep u) with budget := s.budget - u.ticks }) := by
  rw [frameIteration, h, bindNext_next, chargeBudget, displayStep_budget, timerStep_budget, displayStep_ticks,
    timerStep_ticks, (driverStep_frame h).budget]
  rfl

/-- A pass whose driver step faults is that fault. -/
theorem frameIteration_of_fault {f : Fault} (h : driverStep s = .fault f) : frameIteration s = .fault f := by
  rw [frameIteration, h, bindNext_fault]

/-- A completed pass that leaves budget: the loop goes on from the state after it. -/
theorem frameLoop_pass_goes_on (n : Nat) (hb : 0 < s.budget) (h : driverStep s = .next u)
    (hleft : 0 < s.budget - u.ticks) :
    frameLoop (n + 1) s = frameLoop n { displayStep (timerStep u) with budget := s.budget - u.ticks } := by
  rw [frameLoop_succ_of_pos n hb, frameIteration_of_next h, bindNext_next, finishIfSpent_of_pos hleft]

/-- A completed pass that spends the budget: the loop ends there, one more frame counted. -/
theorem frameLoop_pass_ends (n : Nat) (hb : 0 < s.budget) (h : driverStep s = .next u)
    (hspent : s.budget - u.ticks ≤ 0) :
    frameLoop (n + 1) s = .next { displayStep (timerStep u) with
      budget := s.budget - u.ticks, frameCount := s.frameCount + 1 } := by
  rw [frameLoop_succ_of_pos n hb, frameIteration_of_next h, bindNext_next, finishIfSpent_of_spent hspent,
    frameLoop_of_spent n hspent, displayStep_frameCount, timerStep_frameCount, (driverStep_frame h).frameCount]

/-- A faulting driver step ends the loop. -/
theorem frameLoop_pass_faults {f : Fault} (n : Nat) (hb : 0 < s.budget) (h : driverStep s = .fault f) :
    frameLoop (n + 1) s = .fault f := by
  rw [frameLoop_succ_of_pos n hb, frameIteration_of_fault h, bindNext_fault]

/-- `frames()` as one update of the state (43_frame_scheduler.md R97). -/
theorem performCall_frames (s : State) :
    performCall .frames s = { s with framesResult := s.frameCount, frameCount := 0 } := rfl

end

/-- Settles O48: the entry adds to the budget, and a budget that is not positive then ends the frame before its first
pass; a pass from a positive budget goes on, ends the frame or faults. -/
theorem frameFollowsItsBudget : Obligations.FrameFollowsItsBudget := by
  intro n s
  refine ⟨fun hspent => ?_, fun hpos => ?_, frameLoop_of_spent n, fun u hb h => ?_, fun f => frameLoop_pass_faults n⟩
  · rw [frame, beginFrame_eq, finishIfSpent_of_spent hspent, frameLoop_of_spent n hspent]
  · rw [frame, beginFrame_eq, finishIfSpent_of_pos hpos]
  · exact ⟨frameLoop_pass_goes_on n hb h, frameLoop_pass_ends n hb h⟩

/-- Settles O52: the second call finds the counter at 0. -/
theorem framesDrainsTheCount : Obligations.FramesDrainsTheCount := by
  intro s
  refine ⟨performCall_frames s, ?_⟩
  rw [performCall_frames s, performCall_frames]

end Sys2Proof.Machine
end

section
/-! PROOF. The interrupt controller: when it acts, what it takes or wakes, and the index it faults on
(60_exceptions.md R104 to R109). -/

namespace Sys2Proof.Machine

section

variable {s : State}

/-! ### The selected source -/

/-- The lowest pending bit, when it is a source's own, is what the priority encoder selects (60_exceptions.md R106). -/
theorem lowestSet_eq_interruptBit {v : Byte} {src : InterruptSource} (hset : v.getLsbD (interruptBit src) = true)
    (hlower : ∀ j < interruptBit src, v.getLsbD j = false) : lowestSet v = some (interruptBit src) :=
  lowestSet_eq_some.2 ⟨BitVec.lt_of_getLsbD hset, hset, hlower⟩

theorem clearBitAt_interruptBit (v : Byte) (src : InterruptSource) :
    clearBitAt v (interruptBit src) = v &&& ~~~(BitVec.ofNat 8 (2 ^ interruptBit src)) := by
  cases src <;> rfl

/-! ### Taking an interrupt and waking -/

/-- Taking an interrupt as a push of PC and one update of the state: the push, which runs with the IF bit and IME
already clear, leaves every register but SP (60_exceptions.md R108). -/
theorem dispatchInterrupt_eq (s : State) (src : InterruptSource) :
    dispatchInterrupt src s =
      { push16 s.pc { s with
          halt := false, stop := false, ime := false, intFlag := clearBitAt s.intFlag (interruptBit src) } with
        regs := { s.regs with sp := s.sp - 2, pc := interruptVector src }, ticks := s.ticks + 1 } := by
  simp only [dispatchInterrupt, State.setPc, push16_regs, State.setRegs_ticks, push16_ticks]
  rfl

/-- Waking as one update of the state (60_exceptions.md R109). -/
theorem wake_eq (s : State) : wake s = { s with halt := false, stop := false } := rfl

/-- Halted with a source selected: the controller takes it or wakes the CPU, and the CPU is not halted after it. -/
theorem interruptController_ends_halt {src : InterruptSource} (hh : s.halt = true)
    (hl : lowestSet (s.intFlag &&& s.intEnable) = some (interruptBit src)) :
    ∃ t, interruptController s = .next t ∧ t.halt = false := by
  cases hi : s.ime with
  | true => exact ⟨_, interruptController_takes hi hl, dispatchInterrupt_halt s src⟩
  | false => exact ⟨_, interruptController_wakes hi hh hl, wake_halt s⟩

/-! ### The fault -/

/-- With IME = 1 or a halted CPU the controller faults on the selected index when that has no source, and on nothing
else (60_exceptions.md R107). -/
theorem interruptController_eq_fault {f : Fault} (hact : s.ime = true ∨ s.halt = true) :
    interruptController s = .fault f ↔
      ∃ i, lowestSet (s.intFlag &&& s.intEnable) = some i ∧ 5 ≤ i ∧ f = .badInterruptIndex i := by
  have hguard : (s.ime || s.halt) = true := by simpa using hact
  rw [interruptController, if_pos hguard]
  cases hl : lowestSet (s.intFlag &&& s.intEnable) with
  | none => simp
  | some i =>
    cases hsrc : interruptSourceAt i with
    | none => simp [hsrc, interruptSourceAt_eq_none.1 hsrc, eq_comm]
    | some src =>
      have hlt : ¬5 ≤ i := fun h => by simp [interruptSourceAt_eq_none.2 h] at hsrc
      simp [hsrc, hlt]

theorem interruptController_eq_badInterruptIndex (hact : s.ime = true ∨ s.halt = true) (i : Nat) :
    interruptController s = .fault (.badInterruptIndex i) ↔
      lowestSet (s.intFlag &&& s.intEnable) = some i ∧ 5 ≤ i := by
  rw [interruptController_eq_fault hact]
  constructor
  · rintro ⟨j, hl, hj, heq⟩
    cases heq
    exact ⟨hl, hj⟩
  · rintro ⟨hl, hi⟩
    exact ⟨i, hl, hi, rfl⟩

/-- A field of a word is 0 when each of its bits is. -/
theorem extractLsb'_eq_zero_iff {w : Nat} (v : BitVec w) (start len : Nat) :
    v.extractLsb' start len = 0 ↔ ∀ j < len, v.getLsbD (start + j) = false := by
  constructor
  · intro h j hj
    simpa [hj] using congrArg (BitVec.getLsbD · j) h
  · intro h
    refine BitVec.eq_of_getLsbD_eq fun j hj => ?_
    simp [hj, h j hj]

/-- The encoder selects an index above 4 when bits 4:0 are clear and one of bits 7:5 is set. -/
theorem exists_lowestSet_ge_five (v : Byte) :
    (∃ i, lowestSet v = some i ∧ 5 ≤ i) ↔ v.extractLsb' 0 5 = 0 ∧ v.extractLsb' 5 3 ≠ 0 := by
  rw [ne_eq, extractLsb'_eq_zero_iff, extractLsb'_eq_zero_iff]
  constructor
  · rintro ⟨i, hl, hi⟩
    obtain ⟨hi8, hset, hlower⟩ := lowestSet_eq_some.1 hl
    refine ⟨fun j hj => hlower (0 + j) (by omega), fun hhigh => ?_⟩
    have hclear := hhigh (i - 5) (by omega)
    rw [Nat.add_sub_cancel' hi, hset] at hclear
    cases hclear
  · rintro ⟨hlow, hhigh⟩
    cases hl : lowestSet v with
    | none => simp [lowestSet_eq_none.1 hl] at hhigh
    | some i =>
      obtain ⟨-, hset, -⟩ := lowestSet_eq_some.1 hl
      refine ⟨i, rfl, Nat.le_of_not_lt fun hi => ?_⟩
      have hclear := hlow i hi
      rw [Nat.zero_add, hset] at hclear
      cases hclear

/-! ### The driver step of a CPU that is not Running -/

/-- Part 2 of a CPU that is not Running answers a next state, in which the CPU is halted as before and IF and IE are
as they were (42_driver_step.md R84, R85). -/
theorem partTwo_not_running (hr : ¬Running s) :
    ∃ t, partTwo s = .next t ∧ t.halt = s.halt ∧ t.intFlag = s.intFlag ∧ t.intEnable = s.intEnable := by
  cases hm : mustSwitch s with
  | true => exact ⟨_, partTwo_switch hr hm, rfl, rfl, rfl⟩
  | false => exact ⟨_, partTwo_idle hr hm, rfl, rfl, rfl⟩

theorem not_running_of_halt (hh : s.halt = true) : ¬Running s := fun hr => by simp [hr.1] at hh

/-- The driver step of a halted CPU with a source selected completes, and the CPU is not halted after it. -/
theorem driverStep_ends_halt {src : InterruptSource} (hf : s.fault = none) (hh : s.halt = true)
    (hl : lowestSet (s.intFlag &&& s.intEnable) = some (interruptBit src)) :
    ∃ t, driverStep s = .next t ∧ t.halt = false := by
  have hr : ¬Running (resolveLatch s) := not_running_of_halt (by simpa using hh)
  obtain ⟨u, hu, huhalt, hflag, henable⟩ := partTwo_not_running hr
  obtain ⟨v, hv, hvhalt⟩ := interruptController_ends_halt (s := u) (src := src) (by simpa [huhalt] using hh)
    (by simpa [hflag, henable] using hl)
  refine ⟨countTicks (scaleTicks v), ?_, hvhalt⟩
  rw [driverStep_eq hf, hu, bindNext_next, hv, bindNext_next]

/-- The driver step that only wakes a halted CPU: its one base cycle is the idle one of part 2, and the controller
charges none. -/
theorem driverStep_wakes {src : InterruptSource} (hf : s.fault = none) (hi : s.ime = false)
    (hp : s.imePending = false) (hh : s.halt = true) (hm : mustSwitch s = false)
    (hl : lowestSet (s.intFlag &&& s.intEnable) = some (interruptBit src)) :
    driverStep s = .next { wake s with
      ticks := speedMultiplier s.speed,
      totalTicks := s.totalTicks + BitVec.ofNat 64 (speedMultiplier s.speed) } := by
  have hlatch : resolveLatch s = s := by simp [resolveLatch, hp]
  have hctl : interruptController (s.setTicks 1) = .next (wake (s.setTicks 1)) := interruptController_wakes hi hh hl
  rw [driverStep_eq hf, hlatch, partTwo_idle (not_running_of_halt hh) hm, bindNext_next, hctl, bindNext_next,
    countTicks_scaleTicks_one rfl]
  rfl

end

/-- Settles O30: a completed driver step runs the controller after part 2, and the controller leaves the state when
IME = 0 and the CPU is not halted, and when nothing is pending and enabled. -/
theorem controllerNeedsImeOrHalt : Obligations.ControllerNeedsImeOrHalt := by
  refine ⟨fun s t h => ?_, fun s => ⟨interruptController_off, interruptController_idle⟩⟩
  obtain ⟨-, hsteps⟩ := driverStep_next h
  exact hsteps

/-- Settles O31: the lowest pending bit is the one selected, and taking its interrupt is the push of PC and the
update the statement gives. -/
theorem dispatchTakesTheLowestSource : Obligations.DispatchTakesTheLowestSource := by
  rintro s _ src hi hset hlower rfl
  rw [interruptController_takes hi (lowestSet_eq_interruptBit hset hlower), dispatchInterrupt_eq,
    clearBitAt_interruptBit]
  rfl

/-- Settles O35: the controller faults with the index the encoder selects, and that is above 4 when the five low bits
are clear and one of the three high bits is set. -/
theorem badInterruptIndexFaults : Obligations.BadInterruptIndexFaults := by
  intro s hact
  refine ⟨fun i => ?_, ?_⟩
  · rw [interruptController_eq_badInterruptIndex hact, lowestSet_eq_some]
    tauto
  · simp only [interruptController_eq_badInterruptIndex hact]
    exact exists_lowestSet_ge_five _

/-- Settles O36: the controller wakes the CPU, which in a driver step follows the idle cycle of part 2. -/
theorem wakeWithoutService : Obligations.WakeWithoutService := by
  intro s src hi hh hset hlower
  have hl := lowestSet_eq_interruptBit hset hlower
  refine ⟨interruptController_wakes hi hh hl, fun hf hstop hp => ?_⟩
  have hm : mustSwitch s = false := by simp [mustSwitch, hstop]
  rw [driverStep_wakes hf hi hp hh hm hl, wake_eq]
  simp only [hstop]

end Sys2Proof.Machine
end

section
/-! PROOF. A set fault: no part of the block that would step the core goes on (60_exceptions.md R115). -/

namespace Sys2Proof.Machine

section

variable {u : State} {f : Fault}

/-- A fault of a step is recorded, whatever else it leaves (log 12). -/
theorem settle_fault (s : State) (f : Fault) : (settle s (.fault f)).fault = some f := rfl

theorem beginFrame_fault (u : State) : (beginFrame u).fault = u.fault := (performCall_frame .frame u).fault

/-- `frame()` on a faulted block stops at its first driver step. -/
theorem frame_faulted (hf : u.fault = some f) (n : Nat) (hb : 0 < (beginFrame u).budget) :
    frame (n + 1) u = .fault f :=
  frameLoop_pass_faults n hb (driverStep_faulted (by rwa [beginFrame_fault]))

/-- A faulted block has no run of one step or more. -/
theorem not_safeRun_faulted (hf : u.fault = some f) {k : Nat} (hk : 0 < k) (t : State) : ¬SafeRun k u t := by
  obtain ⟨k, rfl⟩ := Nat.exists_eq_succ_of_ne_zero hk.ne'
  intro hrun
  obtain ⟨v, hv, -⟩ := safeRun_succ.1 hrun
  rw [step_faulted hf] at hv
  cases hv

end

/-- Settles O46: a fault is recorded by `settle`, and a block with `core.fault` set answers it from the driver step,
from the loop of `frame()` and from the step of the block. -/
theorem faultsAreSticky : Obligations.FaultsAreSticky := by
  refine ⟨fun s f h => ?_, fun u f hf => ⟨driverStep_faulted hf, frame_faulted hf, fun _ => ?_⟩⟩
  · rw [h, settle_fault]
  · exact ⟨step_faulted hf, fun k t hk => not_safeRun_faulted hf hk t⟩

end Sys2Proof.Machine
end

section
/-! PROOF. The key events of the host: the one bit each moves, and the halted CPU that the joypad wakes
(60_exceptions.md R119, R120, 10_state.md R32). -/

namespace Sys2Proof.Machine

section

variable (s : State) {key : Button}

/-! ### The nibble of a key -/

/-- A button that is no direction key changes the nibble of the buttons alone. -/
theorem mapNibble_button (h : isDirection key = false) (f : Nibble → Nibble) :
    s.mapNibble key f = { s with buttons := f s.buttons } := by
  rw [State.mapNibble, if_neg (by simp [h])]
  rfl

/-- A direction key changes the nibble of the directions alone. -/
theorem mapNibble_direction (h : isDirection key = true) (f : Nibble → Nibble) :
    s.mapNibble key f = { s with directions := f s.directions } := by
  rw [State.mapNibble, if_pos h]
  rfl

/-- The masks that leave a nibble, with the literals of the statements. -/
theorem nibble_and_0xF (n : Nibble) : n &&& 0xF = n := BitVec.and_allOnes

theorem nibble_or_0x0 (n : Nibble) : n ||| 0x0 = n := BitVec.or_zero

/-! ### Key events as one update of the state -/

theorem raiseWhen_joypad : raiseWhen true .joypad s = { s with intFlag := s.intFlag ||| 0x10 } := rfl

/-- `keydown` clears the bit of its key, keeps the nibble of the other keys and sets IF[4]. -/
theorem performCall_keydown (key : Button) :
    performCall (.keydown key) s = { s with
      intFlag := s.intFlag ||| 0x10,
      buttons := s.buttons &&&
        (match key with | .a => 0xE | .b => 0xD | .select => 0xB | .start => 0x7 | _ => 0xF),
      directions := s.directions &&&
        (match key with | .right => 0xE | .left => 0xD | .up => 0xB | .down => 0x7 | _ => 0xF) } := by
  rw [performCall, keyDown, raiseWhen_joypad]
  cases key
  case a | b | select | start =>
    rw [mapNibble_button s rfl]
    simp only [nibble_and_0xF]
    rfl
  case right | left | up | down =>
    rw [mapNibble_direction s rfl]
    simp only [nibble_and_0xF]
    rfl

/-- `keyup` sets the bit of its key and keeps the nibble of the other keys. -/
theorem performCall_keyup (key : Button) :
    performCall (.keyup key) s = { s with
      buttons := s.buttons ||| (match key with | .a => 0x1 | .b => 0x2 | .select => 0x4 | .start => 0x8 | _ => 0x0),
      directions := s.directions |||
        (match key with | .right => 0x1 | .left => 0x2 | .up => 0x4 | .down => 0x8 | _ => 0x0) } := by
  rw [performCall, keyUp]
  cases key
  case a | b | select | start =>
    rw [mapNibble_button s rfl]
    simp only [nibble_or_0x0]
    rfl
  case right | left | up | down =>
    rw [mapNibble_direction s rfl]
    simp only [nibble_or_0x0]
    rfl

/-- With nothing pending before, raising source 4 makes the joypad the source selected, if it is enabled. -/
theorem lowestSet_raised_joypad {flag enable : Byte} (hidle : flag &&& enable = 0)
    (hjoypad : enable.getLsbD 4 = true) :
    lowestSet ((flag ||| 0x10) &&& enable) = some (interruptBit .joypad) := by
  have hbits : ∀ j < 4, (0x10 : Byte).getLsbD j = false := by decide
  refine lowestSet_eq_interruptBit ?_ fun j hj => ?_
  · rw [BitVec.getLsbD_and, BitVec.getLsbD_or, interruptBit, hjoypad, Bool.and_true]
    exact Bool.or_true _
  · rw [BitVec.getLsbD_and, BitVec.getLsbD_or, hbits j hj, Bool.or_false, ← BitVec.getLsbD_and, hidle]
    exact BitVec.getLsbD_zero

end

/-- Settles O55: the eight keys each clear one bit of one nibble, and a halted CPU then has the joypad as its selected
source, so that its next driver step takes it or wakes. -/
theorem keydownClearsAndRaises : Obligations.KeydownClearsAndRaises := by
  refine fun s key => ⟨performCall_keydown s key, fun hf hh hidle hjoypad => ?_⟩
  rw [performCall_keydown]
  exact driverStep_ends_halt (src := .joypad) hf hh (lowestSet_raised_joypad hidle hjoypad)

/-- Settles O56: the eight keys each set one bit of one nibble. -/
theorem keyupRestores : Obligations.KeyupRestores := performCall_keyup

end Sys2Proof.Machine
end

section
/-! PROOF. The hang after STOP: an idle driver step and a host call keep it, so every run from it goes on
(70_reset_and_hazards.md R138). -/

namespace Sys2Proof.Machine

section

variable {s : State}

/-- STOP as one update of the state, up to PC (40_cpu_state_machine.md R69). -/
theorem exec_stop (s : State) :
    exec .stop s = .next { skipStopByte s with stop := true, ticks := s.params.coreCost.stop } := rfl

theorem not_running_of_stop (hs : s.stop = true) : ¬Running s := fun hr => by simp [hr.2] at hs

/-- The driver step of the hang is the idle one whatever is pending and enabled: no switch is legal, and with IME = 0
the controller leaves a CPU that is not halted. -/
theorem driverStep_hung (hf : s.fault = none) (hhung : HungStopped s) :
    driverStep s = .next { s with
      ticks := speedMultiplier s.speed,
      totalTicks := s.totalTicks + BitVec.ofNat 64 (speedMultiplier s.speed) } := by
  obtain ⟨hhalt, hstop, hime, hlatch, hswitch⟩ := hhung
  have hresolve : resolveLatch s = s := by simp [resolveLatch, hlatch]
  have hm : mustSwitch s = false := by
    rcases hswitch with htarget | hpend
    · simp [mustSwitch, htarget]
    · simp [mustSwitch, hpend]
  have hctl : interruptController (s.setTicks 1) = .next (s.setTicks 1) := interruptController_off hime hhalt
  rw [driverStep_eq hf, hresolve, partTwo_idle (not_running_of_stop hstop) hm, bindNext_next, hctl, bindNext_next,
    countTicks_scaleTicks_one rfl]
  rfl

/-- What R138 keeps: a hang with no fault, in which the registers are `r` and the clock mode is `m`. -/
structure HangsWith (r : Regs) (m : Speed) (s : State) : Prop where
  fault : s.fault = none
  stopped : HungStopped s
  regs : s.regs = r
  speed : s.speed = m

variable {r : Regs} {m : Speed}

/-- The rest of a pass after its driver step keeps the hang: the peripherals write only IF and their own state. -/
theorem hangsWith_peripherals (h : HangsWith r m s) (b : Int) :
    HangsWith r m (finishIfSpent { displayStep (timerStep s) with budget := b }) := by
  refine ⟨?_, ?_, ?_, ?_⟩
  · simpa using h.fault
  · simpa [HungStopped] using h.stopped
  · simpa using h.regs
  · simpa using h.speed

/-- A pass of the frame loop in the hang counts one idle base cycle and charges it to the budget. -/
theorem hangsWith_pass (h : HangsWith r m s) (hb : InFrame s) :
    ∃ u, step s = .next u ∧ HangsWith r m u ∧ u.ticks = speedMultiplier s.speed ∧
      u.budget = s.budget - speedMultiplier s.speed := by
  obtain ⟨v, hv, hticks, hhang⟩ :
      ∃ v, driverStep s = .next v ∧ v.ticks = speedMultiplier s.speed ∧ HangsWith r m v :=
    ⟨_, driverStep_hung h.fault h.stopped, rfl, h.fault, h.stopped, h.regs, h.speed⟩
  refine ⟨_, (step_inFrame h.fault hb).trans (frameIteration_of_next hv), hangsWith_peripherals hhang _, ?_, ?_⟩
  · simpa using hticks
  · simp [hticks]

/-- A host call writes none of the fields the hang rests on. -/
theorem hangsWith_hostTurn (h : HangsWith r m s) : HangsWith r m (hostTurn s) := by
  have k := hostTurn_frame s
  refine ⟨k.fault.trans h.fault, ?_, k.regs.trans h.regs, k.speed.trans h.speed⟩
  rw [HungStopped, k.halt, k.stop, k.ime, k.imePending, k.params, k.switchPending]
  exact h.stopped

/-- Every step from the hang answers a next state, and that state hangs. -/
theorem hangsWith_step (h : HangsWith r m s) : ∃ t, step s = .next t ∧ HangsWith r m t := by
  by_cases hb : InFrame s
  · obtain ⟨u, hu, hhang, -, -⟩ := hangsWith_pass h hb
    exact ⟨u, hu, hhang⟩
  · exact ⟨_, step_between h.fault (Int.not_lt.1 hb), hangsWith_hostTurn h⟩

/-- Where every state with `P` has a step and the step keeps `P`, there is a run of every length, and it keeps `P`. -/
theorem exists_safeRun {P : State → Prop} (hstep : ∀ s, P s → ∃ t, step s = .next t ∧ P t) (k : Nat)
    (hs : P s) : ∃ t, SafeRun k s t ∧ P t := by
  induction k generalizing s with
  | zero => exact ⟨s, safeRun_zero.2 rfl, hs⟩
  | succ k ih =>
    obtain ⟨u, hu, hPu⟩ := hstep s hs
    obtain ⟨t, hrun, hPt⟩ := ih hPu
    exact ⟨t, safeRun_succ.2 ⟨u, hu, hrun⟩, hPt⟩

end

/-- Settles O47: STOP enters the hang; from there a run of every length goes on and keeps it, by induction on the
number of steps; and a pass from any state of the hang is idle. -/
theorem stoppedForEver : Obligations.StoppedForEver := by
  refine ⟨fun s hhalt hime hlatch hswitch => ⟨_, exec_stop s, hhalt, rfl, hime, hlatch, hswitch⟩,
    fun k s hf hhung => ?_⟩
  have hs : HangsWith s.regs s.speed s := ⟨hf, hhung, rfl, rfl⟩
  obtain ⟨t, hrun, ht⟩ := exists_safeRun (fun _ => hangsWith_step) k hs
  refine ⟨t, hrun, ht.fault, ht.stopped, ht.regs, ht.speed, fun hb => ?_⟩
  obtain ⟨u, hu, -, hticks, hbudget⟩ := hangsWith_pass ht hb
  exact ⟨u, hu, hticks, hbudget⟩

end Sys2Proof.Machine
end

section
/-! PROOF. The block right after its construction: the registers by target, and the control fields
(70_reset_and_hazards.md R127 to R131). -/

namespace Sys2Proof.Machine

/-- The registers of the block constructed with the default `INIT_REGS` (70_reset_and_hazards.md R127). -/
theorem resetFor_regs_default {p : Params} (hinit : p.initRegs = defaultInitRegs p.target)
    (contents : List Host.Cell) : (State.resetFor p contents).regs = resetRegs (defaultInitRegs p.target) := by
  rw [← hinit]
  rfl

/-- Settles O38: the table holds F[3:0] = 0 for both targets, so the mask of the reset leaves its bytes. -/
theorem resetRegisters : Obligations.ResetRegisters := by
  refine ⟨fun p contents => ⟨rfl, fun hinit => ⟨fun ht => ?_, fun ht => ?_⟩⟩, rfl⟩
  · rw [resetFor_regs_default hinit, ht]
    decide
  · rw [resetFor_regs_default hinit, ht]
    decide

/-- Settles O39: each field is the one the construction writes. -/
theorem resetControlFields : Obligations.ResetControlFields := by
  refine ⟨?_, rfl, rfl⟩
  rintro p contents s rfl
  exact ⟨rfl, rfl, rfl, rfl, rfl, rfl, rfl, rfl, rfl, rfl, rfl, rfl, rfl, rfl, rfl, rfl⟩

end Sys2Proof.Machine
end

section
/-! PROOF. Decoding and encoding are inverse to each other, and each byte decodes into its own part of the opcode map
(30_encoding.md R55, R56, R58, R59). -/

namespace Sys2Proof.Machine

/-- A byte of the core or of the illegal bytes decodes to the instruction of its own row. -/
theorem decodeOpcode_listed : ∀ op ∈ coreOpcodes ++ illegalOpcodes,
    (decodeOpcode op).wf = true ∧ (decodeOpcode op).opcode = op := by
  decide

/-- Every byte decodes to a well-formed instruction with that opcode byte. -/
theorem decodeOpcode_wf_opcode (op : Byte) : (decodeOpcode op).wf = true ∧ (decodeOpcode op).opcode = op := by
  by_cases hlisted : op ∈ coreOpcodes ++ illegalOpcodes
  · exact decodeOpcode_listed op hlisted
  · have hclass := opcodeClass_eq_delegated.2 hlisted
    rw [decodeOpcode_delegated hclass]
    exact ⟨beq_iff_eq.2 hclass, rfl⟩

/-- The opcode byte of a well-formed instruction decodes to it. -/
theorem decodeOpcode_opcode {i : Instr} (h : i.wf = true) : decodeOpcode i.opcode = i := by
  cases i
  case delegated op => exact decodeOpcode_delegated (eq_of_beq h)
  all_goals rfl

/-- The opcode byte of a well-formed instruction lies in the instruction's part of the map. -/
theorem opcodeClass_opcode {i : Instr} (h : i.wf = true) : opcodeClass i.opcode = i.opcodeClass := by
  cases i
  case delegated op => exact Laws.OpcodeClass.delegated op h
  all_goals rfl

/-- A byte decodes into its own part of the map. -/
theorem opcodeClass_decodeOpcode (op : Byte) : (decodeOpcode op).opcodeClass = opcodeClass op := by
  obtain ⟨hwf, hop⟩ := decodeOpcode_wf_opcode op
  rw [← opcodeClass_opcode hwf, hop]

/-- Settles O2: the decoder reads the one byte of the encoding, which decodes to the instruction. -/
theorem decodeOfEncodeIsTheInstruction : Obligations.DecodeOfEncodeIsTheInstruction := by
  intro i rest h
  rw [encode, List.singleton_append, decode, decodeOpcode_opcode h]

/-- Settles O3: a list with a first byte decodes to the instruction of that byte. -/
theorem encodeOfDecodeIsTheBytes : Obligations.EncodeOfDecodeIsTheBytes := by
  intro bytes hne
  cases bytes with
  | nil => exact absurd rfl hne
  | cons op rest =>
    obtain ⟨hwf, hop⟩ := decodeOpcode_wf_opcode op
    refine ⟨decodeOpcode op, rest, rfl, hwf, ?_, opcodeClass_decodeOpcode op⟩
    rw [encode, hop, List.singleton_append]

/-- Settles O1: each word is one byte, looked up in the table of the decoder. -/
theorem opcodeWordsDecode : Obligations.OpcodeWordsDecode :=
  ⟨rfl, rfl, rfl, rfl, rfl, rfl, rfl, rfl, rfl, rfl⟩

end Sys2Proof.Machine
end

section
/-! PROOF. The invariant of the block: the state after reset has it, every step keeps it, and so every run from reset
does (10_state.md R17, 40_cpu_state_machine.md R66, 70_reset_and_hazards.md R127, R132). -/

namespace Sys2Proof.Machine

section

variable {s t : State}

/-- The invariant speaks of four fields only. -/
theorem sound_of_eq (hs : Sound s) (hmem : t.mem = s.mem) (hregs : t.regs = s.regs) (hhalt : t.halt = s.halt)
    (hstop : t.stop = s.stop) : Sound t := by
  rwa [Sound, FlagsSound, ModeSound, hmem, hregs, hhalt, hstop]

theorem resolveLatch_sound (hs : Sound s) : Sound (resolveLatch s) :=
  sound_of_eq hs (resolveLatch_mem s) (resolveLatch_regs s) (resolveLatch_halt s) (resolveLatch_stop s)

/-- Part 2 enters a halted or a stopped state from Running only, one of the two. -/
theorem partTwo_sound (hs : Sound s) (h : partTwo s = .next t) : Sound t := by
  obtain ⟨hmem, hflags, hmode⟩ := hs
  rcases partTwo_next h with ⟨⟨hhalt, hstop⟩, he, -⟩ | ⟨-, -, rfl⟩ | ⟨-, -, rfl⟩
  · obtain ⟨hmem', hflags'⟩ := exec_next_sound he hmem hflags
    exact ⟨hmem', hflags', exec_next_mode he hhalt hstop⟩
  · exact ⟨hmem, hflags, by simp⟩
  · exact ⟨hmem, hflags, hmode⟩

/-- The controller only ends a halt or a stop, and what it pushes keeps the form of the byte store. -/
theorem interruptController_sound (hs : Sound s) (h : interruptController s = .next t) : Sound t := by
  obtain ⟨hmem, hflags, hmode⟩ := hs
  rcases interruptController_next h with ⟨rfl, -⟩ | ⟨src, -, ⟨-, rfl⟩ | ⟨-, -, rfl⟩⟩
  · exact ⟨hmem, hflags, hmode⟩
  · exact ⟨dispatchInterrupt_wf hmem src, by simpa [FlagsSound] using hflags, by simp⟩
  · exact ⟨hmem, hflags, by simp⟩

theorem driverStep_sound (hs : Sound s) (h : driverStep s = .next t) : Sound t := by
  obtain ⟨-, u, v, hu, hv, rfl⟩ := driverStep_next h
  have hv' : Sound v := interruptController_sound (partTwo_sound (resolveLatch_sound hs) hu) hv
  exact sound_of_eq hv' rfl rfl rfl rfl

theorem frameIteration_sound (hs : Sound s) (h : frameIteration s = .next t) : Sound t := by
  obtain ⟨u, hu, rfl⟩ := frameIteration_next h
  refine sound_of_eq (driverStep_sound hs hu) ?_ ?_ ?_ ?_ <;> simp

theorem hostTurn_sound (hs : Sound s) : Sound (hostTurn s) := by
  have k := hostTurn_frame s
  exact sound_of_eq hs k.mem k.regs k.halt k.stop

/-- The construction masks F and loads the contents in canonical form. -/
theorem resetFor_sound (p : Params) (contents : List Host.Cell) : Sound (State.resetFor p contents) :=
  ⟨Memory.load_wf contents, flagBits_low p.initRegs.f, by simp [State.resetFor]⟩

end

/-- Settles O42: a pass keeps the invariant part by part, and a host call writes none of its fields. -/
theorem stepKeepsSoundness : Obligations.StepKeepsSoundness := by
  intro s t hs h
  obtain ⟨-, ⟨-, hpass⟩ | ⟨-, rfl⟩⟩ := step_next h
  · exact frameIteration_sound hs hpass
  · exact hostTurn_sound hs

/-- Settles O41: `State.reset` is one of the constructions. -/
theorem resetIsSound : Obligations.ResetIsSound :=
  ⟨resetFor_sound defaultParams [], resetFor_sound⟩

/-- Settles O43: the invariant holds of the constructed block, whose host calls are no part of it, and so along every
run. -/
theorem haltAndStopNeverBothSet : Obligations.HaltAndStopNeverBothSet := by
  intro p contents calls k t hrun
  have hstart : Sound { State.resetFor p contents with hostCalls := calls } := resetFor_sound p contents
  obtain ⟨-, -, hmode⟩ := safeRun_invariant stepKeepsSoundness hstart hrun
  exact hmode

/-- Settles O40: the load keeps the canonical form, and a platform address reads what the load leaves there. -/
theorem resetMemory : Obligations.ResetMemory := by
  refine fun p contents => ⟨Memory.load_wf contents, fun a ha => ?_⟩
  rw [memRead, ha]
  exact Memory.read_load a.isLt (by simpa using ha) contents

/-- No step writes a construction parameter (10_state.md R24). -/
theorem step_params {s t : State} (h : step s = .next t) : t.params = s.params := by
  obtain ⟨-, ⟨-, hpass⟩ | ⟨-, rfl⟩⟩ := step_next h
  · obtain ⟨u, hu, rfl⟩ := frameIteration_next hpass
    simpa using (driverStep_frame hu).params
  · exact (hostTurn_frame s).params

/-- Settles O44: what every step keeps, every run keeps. -/
theorem runsKeepTheParameters : Obligations.RunsKeepTheParameters := fun _ s _ hrun =>
  safeRun_invariant (P := fun u => u.params = s.params) (fun _ _ hu h => (step_params h).trans hu) rfl hrun

end Sys2Proof.Machine
end

section
/-! PROOF. A write to the flags (10_state.md R17). -/

namespace Sys2Proof.Machine

/-- Where F is what a write of `v` leaves, the flags are bits 7 to 4 of `v`, and bits 3 to 0 read 0. -/
theorem flags_of_flagBits {s : State} {v : Byte} (h : s.regs.f = flagBits v) :
    s.flagZ = v.getLsbD 7 ∧ s.flagN = v.getLsbD 6 ∧ s.flagH = v.getLsbD 5 ∧ s.flagC = v.getLsbD 4 ∧
      s.readReg8 .f &&& 0x0F = 0 := by
  have hbit : ∀ i, 4 ≤ i → i < 8 → s.regs.f.getLsbD i = v.getLsbD i := fun i hlow hhigh => by
    have hmask : (0xF0 : Byte).getLsbD i = true := by interval_cases i <;> rfl
    rw [h, flagBits, BitVec.getLsbD_and, hmask, Bool.and_true]
  refine ⟨hbit 7 (by decide) (by decide), hbit 6 (by decide) (by decide), hbit 5 (by decide) (by decide),
    hbit 4 (by decide) (by decide), ?_⟩
  rw [State.readReg8, h, flagBits_low]

theorem getLsbD_lowByte (w : Word) {i : Nat} (h : i < 8) : (lowByte w).getLsbD i = w.getLsbD i := by
  simp [h]

/-- Settles O5: F is the low byte of AF, so both writes leave `flagBits` of a byte in it. -/
theorem flagWritesKeepLowBitsZero : Obligations.FlagWritesKeepLowBitsZero := by
  intro s v w
  have haf := flags_of_flagBits (s := s.writeReg16 .af w) (v := lowByte w) rfl
  simp only [getLsbD_lowByte w, Nat.reduceLT] at haf
  exact ⟨flags_of_flagBits rfl, haf⟩

end Sys2Proof.Machine
end

section
/-! PROOF. What a store, a push and a pop do to the bytes of memory (20_memory.md R40, R41, R48, R53, R54). -/

namespace Sys2Proof.Machine

section

variable {s : State} {a : Word}

/-! ### A store at a platform address -/

/-- A store at a platform address writes the byte store alone. -/
theorem memWrite_ext (ha : busTarget a = .ext) (v : Byte) :
    memWrite s a v = { s with mem := Memory.write s.mem a.toNat v } := by
  rw [memWrite, ha]
  rfl

/-! ### The two bytes of a push -/

/-- A push as its two stores, below an SP that the second one leaves two lower. -/
theorem push16_eq (v : Word) (s : State) :
    push16 v s =
      memWrite ((memWrite (s.setSp (s.sp - 1)) (s.sp - 1) (highByte v)).setSp (s.sp - 2)) (s.sp - 2) (lowByte v) := by
  have hsp : (pushByte (highByte v) s).sp - 1 = s.sp - 2 := by
    rw [State.sp_eq, pushByte_regs, BitVec.sub_sub]
    rfl
  rw [push16, pushByte, hsp, pushByte]

theorem push16_intEnable (v : Word) (s : State) :
    (push16 v s).intEnable =
      if s.sp - 2 = 0xFFFF then lowByte v else if s.sp - 1 = 0xFFFF then highByte v else s.intEnable := by
  simp only [push16_eq, memWrite_intEnable, State.setSp_intEnable]

theorem push16_intFlag (v : Word) (s : State) :
    (push16 v s).intFlag =
      if s.sp - 2 = 0xFF0F then lowByte v else if s.sp - 1 = 0xFF0F then highByte v else s.intFlag := by
  simp only [push16_eq, memWrite_intFlag, State.setSp_intFlag]

theorem sub_one_ne_sub_two (v : Word) : v - 1 ≠ v - 2 := by
  bv_omega

theorem sub_two_add_one (v : Word) : v - 2 + 1 = v - 1 := by
  bv_omega

/-- The high byte of a push reads back off the joypad register and KEY1: the low byte goes elsewhere. -/
theorem memRead_push16_high (hm : Memory.wf s.mem) (v : Word) (hj : s.sp - 1 ≠ 0xFF00) (hk : s.sp - 1 ≠ 0xFF4D) :
    memRead (push16 v s) (s.sp - 1) = highByte v := by
  rw [push16_eq, memRead_memWrite_other _ _ (sub_one_ne_sub_two s.sp), memRead_setSp]
  exact memRead_memWrite_same _ hm hj hk

/-- The low byte of a push reads back off the joypad register and KEY1. -/
theorem memRead_push16_low (hm : Memory.wf s.mem) (v : Word) (hj : s.sp - 2 ≠ 0xFF00) (hk : s.sp - 2 ≠ 0xFF4D) :
    memRead (push16 v s) (s.sp - 2) = lowByte v := by
  have hm' : Memory.wf (memWrite (s.setSp (s.sp - 1)) (s.sp - 1) (highByte v)).mem := memWrite_wf _ _ hm
  rw [push16_eq]
  exact memRead_memWrite_same _ hm' hj hk

/-- A platform address is not that of the joypad register or of KEY1. -/
theorem ne_of_busTarget_ext (ha : busTarget a = .ext) : a ≠ 0xFF00 ∧ a ≠ 0xFF4D := by
  constructor
  · rintro rfl
    cases ha
  · rintro rfl
    cases ha

theorem memRead_push16_high_ext (hm : Memory.wf s.mem) (v : Word) (ha : busTarget (s.sp - 1) = .ext) :
    memRead (push16 v s) (s.sp - 1) = highByte v :=
  memRead_push16_high hm v (ne_of_busTarget_ext ha).1 (ne_of_busTarget_ext ha).2

theorem memRead_push16_low_ext (hm : Memory.wf s.mem) (v : Word) (ha : busTarget (s.sp - 2) = .ext) :
    memRead (push16 v s) (s.sp - 2) = lowByte v :=
  memRead_push16_low hm v (ne_of_busTarget_ext ha).1 (ne_of_busTarget_ext ha).2

/-! ### A pop after a push -/

theorem pop16_push16_fst (hm : Memory.wf s.mem) (v : Word) (hj1 : s.sp - 1 ≠ 0xFF00) (hk1 : s.sp - 1 ≠ 0xFF4D)
    (hj2 : s.sp - 2 ≠ 0xFF00) (hk2 : s.sp - 2 ≠ 0xFF4D) : (pop16 (push16 v s)).1 = v := by
  have hlow := memRead_push16_low hm v hj2 hk2
  have hhigh := memRead_push16_high hm v hj1 hk1
  rw [pop16_fst, push16_regs, sub_two_add_one, hhigh, hlow, joinBytes_highByte_lowByte]

/-- A pop takes back what a push does to SP, wherever SP is. -/
theorem pop16_push16_regs (v : Word) (s : State) : (pop16 (push16 v s)).2.regs = s.regs := by
  rw [pop16_snd, State.setSp, State.setRegs_regs, push16_regs, BitVec.sub_add_cancel]

end

/-- Settles O7: the store is to the byte store, which reads back and keeps its canonical form. -/
theorem platformStoreReadsBack : Obligations.PlatformStoreReadsBack := by
  intro s a v hm ha
  refine ⟨memRead_memWrite_ext v hm ha, fun b => memRead_memWrite_other s v, _, ?_, memWrite_ext ha v⟩
  exact Memory.write_wf hm a.isLt (by simpa using ha)

/-- Settles O8: a store leaves PC, so the fetch after a store at PC reads the byte just written. -/
theorem storeIsSeenByTheNextFetch : Obligations.StoreIsSeenByTheNextFetch := by
  intro s v hm hj hk
  have hregs : (fetchByte (memWrite s s.pc v)).2.regs = { s.regs with pc := s.pc + 1 } := by
    rw [fetchByte_snd, memWrite_regs, State.setPc, State.setRegs_regs, memWrite_regs]
  refine ⟨?_, hregs, fun hpc => ?_⟩
  · rw [fetchByte_fst, memWrite_regs]
    exact memRead_memWrite_same v hm hj hk
  · rw [State.pc_eq, hregs, hpc]
    rfl

/-- Settles O9: each of the two stores of a push reads back at a platform address, writes IE or IF at theirs, and
leaves every other address. -/
theorem pushStoresBelowSp : Obligations.PushStoresBelowSp := by
  intro s v hm
  refine ⟨push16_regs s v, memRead_push16_high_ext hm v, memRead_push16_low_ext hm v, fun hsp => ?_, fun hsp => ?_,
    fun hsp => ?_, fun hsp => ?_, fun a => memRead_push16_other s v⟩
  · rw [push16_intEnable, hsp]
    rfl
  · rw [push16_intEnable, hsp]
    rfl
  · rw [push16_intFlag, hsp]
    rfl
  · rw [push16_intFlag, hsp]
    rfl

/-- Settles O10: the pop reads the two bytes where the push put them. -/
theorem popUndoesPush : Obligations.PopUndoesPush := fun s v hm hj1 hk1 hj2 hk2 =>
  ⟨pop16_push16_fst hm v hj1 hk1 hj2 hk2, pop16_push16_regs v s⟩

end Sys2Proof.Machine
end

section
/-! PROOF. What each core instruction does, as one update of the state, and the frame of the six
(40_cpu_state_machine.md section 2, 10_state.md R18). -/

namespace Sys2Proof.Machine

section

variable {s t : State} {i : Instr}

/-! ### The core instructions as one update of the state -/

theorem exec_halt (s : State) :
    exec .halt s = .next { s with halt := true, ticks := s.params.coreCost.halt } := rfl

theorem exec_ei (s : State) :
    exec .ei s = .next { s with imePending := true, ticks := s.params.coreCost.ei } := rfl

theorem exec_di (s : State) :
    exec .di s = .next { s with ime := false, imePending := false, ticks := s.params.coreCost.di } := rfl

theorem exec_reti (s : State) :
    exec .reti s = .next { s with
      regs := { s.regs with pc := memRead s (s.sp + 1) ++ memRead s s.sp, sp := s.sp + 2 },
      ime := true, ticks := s.params.coreCost.reti } := by
  rw [exec, execReti, returnFromInterrupt, pop16_fst, pop16_snd]
  rfl

/-- With `STOP_LENGTH = 2` the discarded fetch moves PC (30_encoding.md R57; log 17). -/
theorem skipStopByte_two (h : s.params.stopLength = .two) : skipStopByte s = s.setPc (s.pc + 1) := by
  rw [skipStopByte, h]
  rfl

theorem skipStopByte_one (h : s.params.stopLength = .one) : skipStopByte s = s := by
  rw [skipStopByte, h]
  rfl

/-! ### What no core instruction changes -/

/-- `t` agrees with `s` in every register but SP and PC, and in every field of the bus that a store could reach. -/
structure SameRegsAndBus (s t : State) : Prop where
  regs : t.regs = { s.regs with sp := t.sp, pc := t.pc }
  intFlag : t.intFlag = s.intFlag
  intEnable : t.intEnable = s.intEnable
  switchPending : t.switchPending = s.switchPending
  select : t.select = s.select
  mem : t.mem = s.mem

/-- No core instruction stores a byte or writes a register but SP and PC. -/
theorem exec_core_same (hcore : i.opcodeClass = .core) (h : exec i s = .next t) : SameRegsAndBus s t := by
  cases i
  case nop | stop | halt | reti | di | ei =>
    cases h
    constructor <;> rfl
  all_goals cases hcore

/-- The bus reads the same where the fields it reads are the same. -/
theorem memRead_eq_of_same (hbus : SameRegsAndBus s t) (hout : SameOutsideExec s t) (a : Word) :
    memRead t a = memRead s a := by
  rw [memRead, memRead, State.joypRead, State.joypRead, State.key1Read, State.key1Read, hbus.intFlag, hbus.intEnable,
    hbus.switchPending, hbus.select, hbus.mem, hout.params, hout.speed, hout.buttons, hout.directions]

/-- The four flags are bits of F. -/
theorem flags_eq_of_f_eq (h : t.regs.f = s.regs.f) :
    t.flagZ = s.flagZ ∧ t.flagN = s.flagN ∧ t.flagH = s.flagH ∧ t.flagC = s.flagC := by
  simp only [State.flagZ, State.flagN, State.flagH, State.flagC, h, and_self]

theorem SameRegsAndBus.flags (h : SameRegsAndBus s t) :
    t.flagZ = s.flagZ ∧ t.flagN = s.flagN ∧ t.flagH = s.flagH ∧ t.flagC = s.flagC :=
  flags_eq_of_f_eq (by rw [h.regs])

end

/-- Settles O13: STOP is `exec_stop` with the discarded fetch of its length. -/
theorem stopEntersStopped : Obligations.StopEntersStopped := by
  refine fun s => ⟨fun htwo => ?_, fun hone => ?_⟩
  · rw [exec_stop, skipStopByte_two htwo]
    rfl
  · rw [exec_stop, skipStopByte_one hone]

/-- Settles O14: EI is one update of the latch and the cost. -/
theorem eiSetsTheLatch : Obligations.EiSetsTheLatch := exec_ei

/-- Settles O17: the three are core instructions, and of what those may write each leaves what the statement lists. -/
theorem nopHaltStopFrame : Obligations.NopHaltStopFrame := by
  intro i s t hi h
  have hcore : i.opcodeClass = .core := by rcases hi with rfl | rfl | rfl <;> rfl
  have hbus := exec_core_same hcore h
  have hout := exec_next_same h
  have hown : t.sp = s.sp ∧ (i ≠ .stop → t.pc = s.pc) ∧ t.ime = s.ime ∧ t.imePending = s.imePending ∧
      (i ≠ .halt → t.halt = s.halt) ∧ (i ≠ .stop → t.stop = s.stop) := by
    rcases hi with rfl | rfl | rfl
    · cases h
      exact ⟨rfl, fun _ => rfl, rfl, rfl, fun _ => rfl, fun _ => rfl⟩
    · cases h
      exact ⟨rfl, fun _ => rfl, rfl, rfl, fun hne => absurd rfl hne, fun _ => rfl⟩
    · cases h
      exact ⟨rfl, fun hne => absurd rfl hne, rfl, rfl, fun _ => rfl, fun hne => absurd rfl hne⟩
  obtain ⟨hsp, hpc, hime, hlatch, hhalt, hstop⟩ := hown
  have hregs := hbus.regs
  rw [hsp] at hregs
  exact ⟨hregs, hpc, hbus.flags, hime, hlatch, hhalt, hstop, hbus.intFlag, hbus.intEnable, hout.speed,
    hbus.switchPending, hout.totalTicks, hout.budget, hout.frameCount, hout.buttons, hout.directions, hbus.select,
    hout.fault, hout.params, memRead_eq_of_same hbus hout⟩

/-- Settles O18: the three are core instructions, and of what those may write each leaves what the statement lists. -/
theorem eiDiRetiFrame : Obligations.EiDiRetiFrame := by
  intro i s t hi h
  have hcore : i.opcodeClass = .core := by rcases hi with rfl | rfl | rfl <;> rfl
  have hbus := exec_core_same hcore h
  have hout := exec_next_same h
  have hown : (i ≠ .reti → t.pc = s.pc ∧ t.sp = s.sp) ∧ (i = .reti → t.sp = s.sp + 2) ∧
      (i = .ei → t.ime = s.ime) ∧ (i = .reti → t.imePending = s.imePending) ∧ t.halt = s.halt ∧ t.stop = s.stop := by
    rcases hi with rfl | rfl | rfl
    · cases h
      exact ⟨fun _ => ⟨rfl, rfl⟩, nofun, fun _ => rfl, nofun, rfl, rfl⟩
    · cases h
      exact ⟨fun _ => ⟨rfl, rfl⟩, nofun, nofun, nofun, rfl, rfl⟩
    · cases h
      exact ⟨fun hne => absurd rfl hne, fun _ => rfl, nofun, fun _ => rfl, rfl, rfl⟩
  obtain ⟨hregs, hsp, hime, hlatch, hhalt, hstop⟩ := hown
  exact ⟨hbus.regs, hregs, hsp, hbus.flags, hime, hlatch, hhalt, hstop, hbus.intFlag, hbus.intEnable, hout.speed,
    hbus.switchPending, hout.totalTicks, hout.budget, hout.frameCount, hout.buttons, hout.directions, hbus.select,
    hout.fault, hout.params, memRead_eq_of_same hbus hout⟩

end Sys2Proof.Machine
end

section
/-! PROOF. The driver step of HALT, DI, RETI and EI, with an interrupt pending or not (40_cpu_state_machine.md R68,
R71, R72, 70_reset_and_hazards.md R134). -/

namespace Sys2Proof.Machine

section

variable {s t : State}

theorem decodeOpcode_halt : decodeOpcode 0x76 = .halt := rfl
theorem decodeOpcode_reti : decodeOpcode 0xD9 = .reti := rfl
theorem decodeOpcode_di : decodeOpcode 0xF3 = .di := rfl
theorem decodeOpcode_ei : decodeOpcode 0xFB = .ei := rfl

/-- After an instruction that leaves IME set and a source selected, the controller takes that interrupt in the same
step. -/
theorem driverStep_of_exec_next_takes {src : InterruptSource} (hf : s.fault = none) (hr : Running s)
    (he : exec (decodeOpcode (memRead s s.pc)) { s with
      regs := { s.regs with pc := s.pc + 1 }, ime := s.ime || s.imePending, imePending := false } = .next t)
    (ht : t.ticks ≠ 0) (hi : t.ime = true)
    (hl : lowestSet (t.intFlag &&& t.intEnable) = some (interruptBit src)) :
    driverStep s = .next (countTicks (scaleTicks (dispatchInterrupt src t))) := by
  rw [driverStep_of_exec_next hf hr he ht, interruptController_takes hi hl, bindNext_next]

/-- After an instruction that leaves IME clear and the CPU not halted, the controller does nothing, whatever is
pending. -/
theorem driverStep_of_exec_next_off (hf : s.fault = none) (hr : Running s)
    (he : exec (decodeOpcode (memRead s s.pc)) { s with
      regs := { s.regs with pc := s.pc + 1 }, ime := s.ime || s.imePending, imePending := false } = .next t)
    (ht : t.ticks ≠ 0) (hi : t.ime = false) (hh : t.halt = false) :
    driverStep s = .next (countTicks (scaleTicks t)) := by
  rw [driverStep_of_exec_next hf hr he ht, interruptController_off hi hh, bindNext_next]

/-- With the latch set, the instruction of a step runs with IME set, and the controller can take an interrupt after
it (42_driver_step.md R82). -/
theorem driverStep_latched_takes {src : InterruptSource} (hf : s.fault = none) (hr : Running s)
    (hlatch : s.imePending = true)
    (he : exec (decodeOpcode (memRead s s.pc)) { s with
      regs := { s.regs with pc := s.pc + 1 }, ime := true, imePending := false } = .next t)
    (ht : t.ticks ≠ 0) (hi : t.ime = true)
    (hl : lowestSet (t.intFlag &&& t.intEnable) = some (interruptBit src)) :
    driverStep s = .next (countTicks (scaleTicks (dispatchInterrupt src t))) :=
  driverStep_of_exec_next_takes hf hr (by rwa [hlatch, Bool.or_true]) ht hi hl

end

/-- Settles O12: the controller of HALT's own step finds the CPU halted, so it is idle, takes the selected source or
wakes the CPU; and a halted CPU with nothing pending idles. -/
theorem haltEntersHaltedAndWakesAtOnce : Obligations.HaltEntersHaltedAndWakesAtOnce := by
  refine ⟨exec_halt, ?_, ?_⟩
  · rintro s u hf hr hop hcost rfl
    have he := exec_halt { s with
      regs := { s.regs with pc := s.pc + 1 }, ime := s.ime || s.imePending, imePending := false }
    rw [← decodeOpcode_halt, ← hop] at he
    refine ⟨driverStep_of_exec_next_idle hf hr he hcost,
      fun src hl => ⟨fun hi => driverStep_of_exec_next_takes hf hr he hcost hi hl, fun hi => ?_⟩⟩
    rw [driverStep_of_exec_next hf hr he hcost, interruptController_wakes hi rfl hl, bindNext_next, wake_eq]
    simp only [hr.2]
  · intro s hf hh hstop hidle
    have hm : mustSwitch s = false := by simp [mustSwitch, hstop]
    exact ⟨_, driverStep_idle hf (not_running_of_halt hh) hm hidle, rfl, hh, rfl⟩

/-- Settles O15: DI leaves IME and the latch clear, so the controller of its step is off; a halted CPU is woken with
IME = 0. -/
theorem diDisablesAtOnce : Obligations.DiDisablesAtOnce := by
  refine ⟨exec_di, resolveLatch_imePending, fun s hf hr hop hcost => ?_, fun s src hi hh hl => ?_⟩
  · have he := exec_di { s with
      regs := { s.regs with pc := s.pc + 1 }, ime := s.ime || s.imePending, imePending := false }
    rw [← decodeOpcode_di, ← hop] at he
    exact ⟨_, driverStep_of_exec_next_off hf hr he hcost rfl hr.1, rfl, rfl, rfl, rfl⟩
  · exact ⟨_, interruptController_wakes hi hh hl, wake_halt s, hi⟩

/-- Settles O16: RETI is a pop of PC that sets IME, so the controller of its step takes the selected source. -/
theorem retiPopsAndEnablesAtOnce : Obligations.RetiPopsAndEnablesAtOnce := by
  refine ⟨exec_reti, fun s hsp => ⟨_, exec_reti s, ?_, ?_⟩, ?_⟩
  · rw [State.sp_eq, hsp]
    rfl
  · rw [State.pc_eq, hsp, memRead_intEnable]
    rfl
  · rintro s u src hf hr hop hcost hl rfl
    have he := exec_reti { s with
      regs := { s.regs with pc := s.pc + 1 }, ime := s.ime || s.imePending, imePending := false }
    rw [← decodeOpcode_reti, ← hop] at he
    exact driverStep_of_exec_next_takes hf hr he hcost rfl hl

/-- Settles O37: EI's step leaves IME clear, so its controller is off; the next step starts with the latch set, so the
instruction it runs is the one of the statement, and its controller takes the selected source. -/
theorem eiDelaysByOneInstruction : Obligations.EiDelaysByOneInstruction := by
  intro s hf hr hi hlatch hop hcost
  have he := exec_ei { s with
    regs := { s.regs with pc := s.pc + 1 }, ime := s.ime || s.imePending, imePending := false }
  rw [← decodeOpcode_ei, ← hop] at he
  have hime : (s.ime || s.imePending) = false := by rw [hi, hlatch, Bool.or_false]
  refine ⟨_, driverStep_of_exec_next_off hf hr he hcost hime hr.1, rfl, hime, rfl, hr, rfl, rfl, fun a => rfl,
    fun u src hu hticks huime hl => ?_⟩
  refine ⟨_, driverStep_latched_takes hf hr rfl hu hticks huime hl, ?_, ?_⟩
  · rw [State.pc_eq, countTicks_regs, scaleTicks_regs, dispatchInterrupt_regs, interruptVector]
  · rw [countTicks_ime, scaleTicks_ime, dispatchInterrupt_ime]

end Sys2Proof.Machine
end

section
/-! PROOF. The delegated opcodes: what a run of the executor keeps, from the entry of its tree on, and the byte 0xCB
(30_encoding.md R60, 41_executor_contract.md). -/

namespace Sys2Proof.Machine

section

variable {s t : State} {op : Byte}

/-- A delegated opcode keeps F[3:0] zero (10_state.md R17). -/
theorem execDelegated_flags (h : execDelegated op s = .next t) (hf : s.regs.f &&& 0x0F = 0) :
    t.regs.f &&& 0x0F = 0 := by
  obtain ⟨v, hv⟩ := enterExecutor_eq op s
  rw [execDelegated, hv] at h
  exact runExecTree_flags h hf

/-- A delegated opcode keeps the canonical form of the byte store. -/
theorem execDelegated_wf (h : execDelegated op s = .next t) (hm : Memory.wf s.mem) : Memory.wf t.mem := by
  obtain ⟨v, hv⟩ := enterExecutor_eq op s
  rw [execDelegated, hv] at h
  exact runExecTree_wf h hm

/-- A delegated opcode that stores nothing to the joypad register leaves the column. -/
theorem execDelegated_select (h : execDelegated op s = .next t)
    (ha : 0xFF00 ∉ storedAddresses (delegatedTree op s) (entryByte op s) (enterExecutor op s)) :
    t.select = s.select := by
  have k := runExecTree_select h ha
  obtain ⟨v, hv⟩ := enterExecutor_eq op s
  rwa [hv] at k

/-- A delegated opcode that stores nothing to KEY1 leaves the pending switch. -/
theorem execDelegated_switchPending (h : execDelegated op s = .next t)
    (ha : 0xFF4D ∉ storedAddresses (delegatedTree op s) (entryByte op s) (enterExecutor op s)) :
    t.switchPending = s.switchPending := by
  have k := runExecTree_switchPending h ha
  obtain ⟨v, hv⟩ := enterExecutor_eq op s
  rwa [hv] at k

theorem exec_delegated (op : Byte) (s : State) : exec (.delegated op) s = execDelegated op s := rfl

/-- The byte 0xCB runs, past the byte after it, the tree of that byte (30_encoding.md R60). -/
theorem execDelegated_prefix (s : State) :
    execDelegated 0xCB s =
      runExecTree 0xCB ((s.params.executor.cbOps.lookup (memRead s s.pc)).getD .fault) (memRead s s.pc)
        (s.setPc (s.pc + 1)) := rfl

end

/-- Settles O19: the tree completes where it has no fault and otherwise names its opcode byte; the entry of the
executor moves PC at most, so what a run of the tree keeps the opcode keeps. -/
theorem delegatedOpcodeKeepsTheContract : Obligations.DelegatedOpcodeKeepsTheContract := by
  intro op s
  rw [exec_delegated]
  refine ⟨fun h => runExecTree_faultless h op _ _, runExecTree_outcome op _ _ _, fun t h => ?_⟩
  obtain ⟨hout, hctl⟩ := execDelegated_same h
  exact ⟨hctl.halt, hctl.stop, hctl.imePending, hout.speed, hout.totalTicks, hout.budget, hout.frameCount,
    hout.buttons, hout.directions, hout.fault, hout.params, hout.hostCalls, hout.framesResult, hout.imageResult,
    hout.timerOwn, hout.displayOwn, execDelegated_select h, execDelegated_switchPending h, execDelegated_flags h,
    execDelegated_wf h, fun _ => memRead_execDelegated h⟩

/-- Settles O20: the tree of the byte after 0xCB is the one `cbOps` lists, and only faults where there is
none. -/
theorem prefixFetchesTheSecondByte : Obligations.PrefixFetchesTheSecondByte := by
  intro s
  rw [exec_delegated, execDelegated_prefix]
  refine ⟨fun tree h => ?_, fun h => ?_⟩
  · rw [h, Option.getD_some]
    rfl
  · rw [h, Option.getD_none, runExecTree]

end Sys2Proof.Machine
end

section
/-! PROOF. Bounds on what a driver step costs, and the registers a step without a delegated opcode leaves
(42_driver_step.md R83, R92, 10_state.md R15, R18). -/

namespace Sys2Proof.Machine

section

variable {s t u : State}

/-! ### The cost -/

/-- Part 2 charges one base cycle or more. -/
theorem partTwo_ticks_pos (h : partTwo s = .next t) : 0 < t.ticks := by
  rcases partTwo_next h with ⟨-, -, hcost⟩ | ⟨-, -, rfl⟩ | ⟨-, -, rfl⟩
  · exact Nat.pos_of_ne_zero hcost
  · exact Nat.one_pos
  · exact Nat.one_pos

/-- Part 2 of a CPU that is not Running charges one base cycle. -/
theorem partTwo_ticks_of_not_running (hr : ¬Running s) (h : partTwo s = .next t) : t.ticks = 1 := by
  rcases partTwo_next h with ⟨hr', -, -⟩ | ⟨-, -, rfl⟩ | ⟨-, -, rfl⟩
  · exact absurd hr' hr
  · rfl
  · rfl

/-- Part 2 of a driver step charges at most what bounds the instruction decoded at PC. -/
theorem partTwo_ticks_le {C : Nat} (hC : 1 ≤ C) (hbound : ∀ u, exec (decodeOpcode (memRead s s.pc)) { s with
      regs := { s.regs with pc := s.pc + 1 }, ime := s.ime || s.imePending, imePending := false } = .next u →
      u.ticks ≤ C) (h : partTwo (resolveLatch s) = .next t) : t.ticks ≤ C := by
  by_cases hr : Running (resolveLatch s)
  · rcases partTwo_next h with ⟨-, he, -⟩ | ⟨hr', -, -⟩ | ⟨hr', -, -⟩
    · rw [memRead_resolveLatch, resolveLatch_regs, resolveLatch_setPc] at he
      exact hbound t he
    · exact absurd hr hr'
    · exact absurd hr hr'
  · rwa [partTwo_ticks_of_not_running hr h]

theorem two_le_speedMultiplier (m : Speed) : 2 ≤ speedMultiplier m := by
  cases m <;> decide

theorem speedMultiplier_le_four (m : Speed) : speedMultiplier m ≤ 4 := by
  cases m <;> decide

/-- A driver step returns 2 ticks or more (42_driver_step.md R92). -/
theorem two_le_driverStep_ticks (h : driverStep s = .next t) : 2 ≤ t.ticks := by
  obtain ⟨-, u, -, hu, -, -⟩ := driverStep_next h
  have hpos : 1 ≤ if TakesInterrupt u then u.ticks + 1 else u.ticks := by
    have hu' := partTwo_ticks_pos hu
    split <;> omega
  rw [driverStep_ticks h hu]
  exact Nat.mul_le_mul hpos (two_le_speedMultiplier t.speed)

/-- A driver step whose part 2 charges at most `C` base cycles returns at most `(C + 1) × 4` ticks. -/
theorem driverStep_ticks_le {C : Nat} (h : driverStep s = .next t) (hu : partTwo (resolveLatch s) = .next u)
    (hC : u.ticks ≤ C) : t.ticks ≤ (C + 1) * 4 := by
  have hcycles : (if TakesInterrupt u then u.ticks + 1 else u.ticks) ≤ C + 1 := by
    split <;> omega
  rw [driverStep_ticks h hu]
  exact Nat.mul_le_mul hcycles (speedMultiplier_le_four t.speed)

/-! ### The registers -/

/-- A CPU that is not Running keeps its registers through part 2. -/
theorem partTwo_regs_of_not_running (hr : ¬Running s) (h : partTwo s = .next t) : t.regs = s.regs := by
  rcases partTwo_next h with ⟨hr', -, -⟩ | ⟨-, -, rfl⟩ | ⟨-, -, rfl⟩
  · exact absurd hr' hr
  · rfl
  · rfl

/-- Taking an interrupt moves SP. -/
theorem dispatchInterrupt_regs_ne (s : State) (src : InterruptSource) : (dispatchInterrupt src s).regs ≠ s.regs := by
  intro h
  have hsp : s.sp - 2 = s.sp := by simpa using congrArg Regs.sp h
  bv_omega

/-- A step that leaves every register of a CPU that is not Running has taken no interrupt. -/
theorem not_takesInterrupt_of_regs_eq (hr : ¬Running s) (h : driverStep s = .next t) (hregs : t.regs = s.regs)
    (hu : partTwo (resolveLatch s) = .next u) : ¬TakesInterrupt u := by
  rintro ⟨hi, hpend⟩
  obtain ⟨-, u', v, hu', hv, rfl⟩ := driverStep_next h
  cases hu.symm.trans hu'
  have huregs : u.regs = s.regs := by
    rw [partTwo_regs_of_not_running (by rwa [running_resolveLatch]) hu, resolveLatch_regs]
  rcases interruptController_next hv with ⟨-, ⟨hoff, -⟩ | hidle⟩ | ⟨src, -, ⟨-, rfl⟩ | ⟨hoff, -, -⟩⟩
  · simp [hi] at hoff
  · exact hpend hidle
  · exact dispatchInterrupt_regs_ne u src (hregs.trans huregs.symm)
  · simp [hi] at hoff

/-- A byte that is not delegated decodes to an instruction that faults or is a core one. -/
theorem exec_decodeOpcode_same {op : Byte} (hop : opcodeClass op ≠ .delegated)
    (h : exec (decodeOpcode op) s = .next t) : SameRegsAndBus s t := by
  cases hclass : (decodeOpcode op).opcodeClass with
  | core => exact exec_core_same hclass h
  | delegated => exact absurd ((opcodeClass_decodeOpcode op).symm.trans hclass) hop
  | illegal =>
    rw [exec_illegal hclass] at h
    cases h

/-- Part 2 without a delegated opcode leaves every register but SP and PC, and IF and IE. -/
theorem partTwo_keeps (hop : Running s → opcodeClass (memRead s s.pc) ≠ .delegated) (h : partTwo s = .next t) :
    t.regs = { s.regs with sp := t.sp, pc := t.pc } ∧ t.intFlag = s.intFlag ∧ t.intEnable = s.intEnable := by
  rcases partTwo_next h with ⟨hr, he, -⟩ | ⟨-, -, rfl⟩ | ⟨-, -, rfl⟩
  · have k := exec_decodeOpcode_same (hop hr) he
    exact ⟨k.regs, k.intFlag, k.intEnable⟩
  · exact ⟨rfl, rfl, rfl⟩
  · exact ⟨rfl, rfl, rfl⟩

/-- The same of the part 2 of a driver step. -/
theorem partTwo_resolveLatch_keeps (hop : Running s → opcodeClass (memRead s s.pc) ≠ .delegated)
    (h : partTwo (resolveLatch s) = .next t) :
    t.regs = { s.regs with sp := t.sp, pc := t.pc } ∧ t.intFlag = s.intFlag ∧ t.intEnable = s.intEnable := by
  simpa only [resolveLatch_regs, resolveLatch_intFlag, resolveLatch_intEnable] using
    partTwo_keeps (by simpa only [running_resolveLatch, State.pc_eq, resolveLatch_regs, memRead_resolveLatch] using hop)
      h

/-- The controller writes no register but SP and PC (60_exceptions.md R108). -/
theorem interruptController_regs (h : interruptController s = .next t) :
    t.regs = { s.regs with sp := t.sp, pc := t.pc } := by
  rcases interruptController_next h with ⟨rfl, -⟩ | ⟨src, -, ⟨-, rfl⟩ | ⟨-, -, rfl⟩⟩
  · rfl
  · rw [State.sp_eq, State.pc_eq, dispatchInterrupt_regs]
  · rfl

end

/-- Settles O28: the base cycles of part 2 are 1 or more, at most the bound of the instruction, and exactly 1 for a CPU
that is not Running; the controller adds one when it takes an interrupt, which moves SP. -/
theorem stepTicksAreBounded : Obligations.StepTicksAreBounded := by
  intro s t h
  obtain ⟨-, u, -, hu, -, -⟩ := driverStep_next h
  refine ⟨two_le_driverStep_ticks h,
    fun C hC hbound => driverStep_ticks_le h hu (partTwo_ticks_le hC hbound hu), fun hr hregs => ?_⟩
  rw [driverStep_ticks h hu, if_neg (not_takesInterrupt_of_regs_eq hr h hregs hu),
    partTwo_ticks_of_not_running (by rwa [running_resolveLatch]) hu, Nat.one_mul]

/-- Settles O29: part 2 turns a cost of 0 into the fault, before the controller runs. -/
theorem zeroCostIsAFault : Obligations.ZeroCostIsAFault := by
  intro s u hf hr he hcost
  rw [driverStep_running hf hr, he, bindNext_next, if_pos hcost]

/-- Settles O45: neither part 2 nor the controller writes a register but SP and PC. -/
theorem onlyTheExecutorWritesGeneralRegisters : Obligations.OnlyTheExecutorWritesGeneralRegisters := by
  intro s t h hop
  obtain ⟨-, u, v, hu, hv, rfl⟩ := driverStep_next h
  obtain ⟨huregs, -, -⟩ := partTwo_resolveLatch_keeps hop hu
  have hregs : v.regs = { s.regs with sp := v.sp, pc := v.pc } := by
    rw [interruptController_regs hv, huregs]
  exact ⟨hregs, flags_eq_of_f_eq (by rw [countTicks_regs, scaleTicks_regs, hregs])⟩

end Sys2Proof.Machine
end

section
/-! PROOF. What taking an interrupt leaves, and how an IF bit is cleared (60_exceptions.md sections 1 and 2). -/

namespace Sys2Proof.Machine

section

variable {s t : State} {src : InterruptSource}

/-! ### The bits of IF -/

theorem getLsbD_clearBitAt_same {w : Nat} (v : BitVec w) (i : Nat) : (clearBitAt v i).getLsbD i = false := by
  by_cases h : i < w <;> simp [clearBitAt, h]

theorem getLsbD_clearBitAt_of_ne {w : Nat} (v : BitVec w) {i j : Nat} (h : j ≠ i) :
    (clearBitAt v i).getLsbD j = v.getLsbD j := by
  by_cases hj : j < w
  · have hlt : j < i ∨ j - i ≠ 0 := by omega
    simp [clearBitAt, hj, hlt]
  · rw [BitVec.getLsbD_of_ge _ _ (Nat.le_of_not_lt hj), BitVec.getLsbD_of_ge _ _ (Nat.le_of_not_lt hj)]

/-- Unless the push falls on IF, taking an interrupt changes IF by the one bit of its source. -/
theorem dispatchInterrupt_intFlag (h1 : s.sp - 1 ≠ 0xFF0F) (h2 : s.sp - 2 ≠ 0xFF0F) :
    (dispatchInterrupt src s).intFlag = clearBitAt s.intFlag (interruptBit src) := by
  rw [dispatchInterrupt_eq]
  simp only [push16_intFlag, if_neg h1, if_neg h2]

/-! ### The bytes of memory -/

/-- The state from which taking an interrupt pushes PC: awake, with the IF bit and IME clear (60_exceptions.md R108). -/
def acknowledged (src : InterruptSource) (s : State) : State :=
  ((wake s).setIntFlag (clearBitAt s.intFlag (interruptBit src))).setIme false

/-- IF is seen by its own address alone. -/
theorem memRead_setIntFlag_of_ne {a : Word} (v : Byte) (h : a ≠ 0xFF0F) :
    memRead (s.setIntFlag v) a = memRead s a := memRead_memWrite_other s v h

theorem memRead_acknowledged_of_ne {a : Word} (h : a ≠ 0xFF0F) :
    memRead (acknowledged src s) a = memRead s a := by
  rw [acknowledged, memRead_setIme, memRead_setIntFlag_of_ne _ h, wake, memRead_setStop, memRead_setHalt]

/-- After an interrupt is taken the bus reads what the push of PC left. -/
theorem memRead_dispatchInterrupt (src : InterruptSource) (s : State) (a : Word) :
    memRead (dispatchInterrupt src s) a = memRead (push16 s.pc (acknowledged src s)) a := by
  rw [dispatchInterrupt, memRead_setTicks, memRead_setPc]
  rfl

theorem memRead_dispatchInterrupt_other {a : Word} (h1 : a ≠ s.sp - 1) (h2 : a ≠ s.sp - 2) (hflag : a ≠ 0xFF0F) :
    memRead (dispatchInterrupt src s) a = memRead s a := by
  rw [memRead_dispatchInterrupt, memRead_push16_other (acknowledged src s) s.pc h1 h2, memRead_acknowledged_of_ne hflag]

theorem memRead_dispatchInterrupt_high (hm : Memory.wf s.mem) (ha : busTarget (s.sp - 1) = .ext) :
    memRead (dispatchInterrupt src s) (s.sp - 1) = highByte s.pc := by
  rw [memRead_dispatchInterrupt]
  exact memRead_push16_high_ext (s := acknowledged src s) hm s.pc ha

theorem memRead_dispatchInterrupt_low (hm : Memory.wf s.mem) (ha : busTarget (s.sp - 2) = .ext) :
    memRead (dispatchInterrupt src s) (s.sp - 2) = lowByte s.pc := by
  rw [memRead_dispatchInterrupt]
  exact memRead_push16_low_ext (s := acknowledged src s) hm s.pc ha

/-! ### How an IF bit is cleared -/

/-- The controller clears an IF bit by taking its source, the one selected, or by a push onto IF. -/
theorem interruptController_clears (h : interruptController s = .next t) {i : Nat}
    (hset : s.intFlag.getLsbD i = true) (hclear : t.intFlag.getLsbD i = false) :
    (∃ src, i = interruptBit src ∧ lowestSet (s.intFlag &&& s.intEnable) = some i ∧ t = dispatchInterrupt src s) ∨
      t.sp = 0xFF0F ∨ t.sp + 1 = 0xFF0F := by
  have hchanged : t.intFlag ≠ s.intFlag := fun heq => by simp [heq, hset] at hclear
  rcases interruptController_next h with ⟨rfl, -⟩ | ⟨src, hl, ⟨-, rfl⟩ | ⟨-, -, rfl⟩⟩
  · exact absurd rfl hchanged
  · have hsp : (dispatchInterrupt src s).sp = s.sp - 2 := by rw [State.sp_eq, dispatchInterrupt_regs]
    rw [hsp, sub_two_add_one]
    by_cases h2 : s.sp - 2 = 0xFF0F
    · exact .inr (.inl h2)
    by_cases h1 : s.sp - 1 = 0xFF0F
    · exact .inr (.inr h1)
    have hi : i = interruptBit src := by
      by_contra hne
      rw [dispatchInterrupt_intFlag h1 h2, getLsbD_clearBitAt_of_ne _ hne, hset] at hclear
      cases hclear
    exact .inl ⟨src, hi, hi ▸ hl, rfl⟩
  · exact absurd (wake_intFlag s) hchanged

end

/-- Settles O32: of the registers the push writes SP and the jump PC; IF loses the one bit; and memory is that of the
push. -/
theorem dispatchFrame : Obligations.DispatchFrame := by
  rintro s _ src rfl
  have hregs : (dispatchInterrupt src s).regs =
      { s.regs with sp := (dispatchInterrupt src s).sp, pc := (dispatchInterrupt src s).pc } := by
    rw [State.sp_eq, State.pc_eq, dispatchInterrupt_regs]
  refine ⟨hregs, flags_eq_of_f_eq (by rw [dispatchInterrupt_regs]), dispatchInterrupt_imePending s src,
    dispatchInterrupt_speed s src, dispatchInterrupt_totalTicks s src, dispatchInterrupt_budget s src,
    dispatchInterrupt_frameCount s src, dispatchInterrupt_buttons s src, dispatchInterrupt_directions s src,
    dispatchInterrupt_fault s src, dispatchInterrupt_params s src, fun h1 h2 => ?_, memRead_dispatchInterrupt_high,
    memRead_dispatchInterrupt_low, fun _ => memRead_dispatchInterrupt_other⟩
  rw [dispatchInterrupt_intFlag h1 h2]
  exact ⟨getLsbD_clearBitAt_same _ _, fun _ => getLsbD_clearBitAt_of_ne _⟩

/-- Settles O33: part 2 without a delegated opcode leaves IF and IE, so the controller clears the bit, and the scaling
and the tick counter leave the state it answers. -/
theorem ifBitsClearOnlyByDispatch : Obligations.IfBitsClearOnlyByDispatch := by
  intro s t h hop i hset hclear
  obtain ⟨-, u, v, hu, hv, rfl⟩ := driverStep_next h
  obtain ⟨-, hflag, henable⟩ := partTwo_resolveLatch_keeps hop hu
  rcases interruptController_clears hv (by rwa [hflag]) hclear with ⟨src, hi, hl, rfl⟩ | hpush
  · rw [hflag, henable] at hl
    refine .inl ⟨hl, ?_, ?_, ?_, src, hi, ?_⟩
    · rw [countTicks_ime, scaleTicks_ime, dispatchInterrupt_ime]
    · rw [countTicks_halt, scaleTicks_halt, dispatchInterrupt_halt]
    · rw [countTicks_stop, scaleTicks_stop, dispatchInterrupt_stop]
    · rw [State.pc_eq, countTicks_regs, scaleTicks_regs, dispatchInterrupt_regs]
  · exact .inr hpush

end Sys2Proof.Machine
end

section
/-! PROOF. What a driver step answers, and what a pass and a host call leave (43_frame_scheduler.md, 00_scope.md R12). -/

namespace Sys2Proof.Machine

section

variable {s t : State} {r : Result}

/-! ### A driver step answers a next state or a fault -/

/-- The outcome is no refusal (log 3). -/
def NextOrFault (r : Result) : Prop := (∃ t, r = .next t) ∨ ∃ f, r = .fault f

theorem nextOrFault_next (s : State) : NextOrFault (.next s) := .inl ⟨s, rfl⟩

theorem nextOrFault_fault (f : Fault) : NextOrFault (.fault f) := .inr ⟨f, rfl⟩

theorem nextOrFault_bindNext {k : State → Result} (hr : NextOrFault r) (hk : ∀ s, NextOrFault (k s)) :
    NextOrFault (bindNext r k) := by
  rcases hr with ⟨s, rfl⟩ | ⟨f, rfl⟩
  · exact hk s
  · exact nextOrFault_fault f

theorem exec_nextOrFault (i : Instr) (s : State) : NextOrFault (exec i s) := by
  cases h : exec i s with
  | next t => exact nextOrFault_next t
  | fault f => exact nextOrFault_fault f
  | refused x => exact absurd h (exec_not_refused i s x)

theorem partTwo_nextOrFault (s : State) : NextOrFault (partTwo s) := by
  rw [partTwo]
  split
  · refine nextOrFault_bindNext (exec_nextOrFault _ _) fun t => ?_
    split
    · exact nextOrFault_fault _
    · exact nextOrFault_next t
  · split
    · exact nextOrFault_next _
    · exact nextOrFault_next _

theorem interruptController_nextOrFault (s : State) : NextOrFault (interruptController s) := by
  rw [interruptController]
  split
  · split
    · exact nextOrFault_next s
    · split
      · exact nextOrFault_fault _
      · exact nextOrFault_next _
  · exact nextOrFault_next s

theorem driverStep_nextOrFault (s : State) : NextOrFault (driverStep s) := by
  cases hf : s.fault with
  | none =>
    rw [driverStep_eq hf]
    exact nextOrFault_bindNext (partTwo_nextOrFault _) fun t =>
      nextOrFault_bindNext (interruptController_nextOrFault t) fun _ => nextOrFault_next _
  | some f =>
    rw [driverStep_faulted hf]
    exact nextOrFault_fault f

/-! ### A pass and a host call -/

/-- A pass counts the ticks of its driver step and takes them from the budget. -/
theorem frameIteration_ticks (h : frameIteration s = .next t) :
    t.totalTicks = s.totalTicks + BitVec.ofNat 64 t.ticks ∧ t.budget = s.budget - t.ticks := by
  obtain ⟨u, hu, rfl⟩ := frameIteration_next h
  have k := driverStep_frame hu
  simp [k.totalTicks, k.budget]

/-- A step in a frame is a pass. -/
theorem step_next_inFrame (hframe : InFrame s) (h : step s = .next t) : frameIteration s = .next t := by
  obtain ⟨-, ⟨-, hpass⟩ | ⟨hspent, -⟩⟩ := step_next h
  · exact hpass
  · exact absurd hframe (Int.not_lt.2 hspent)

/-- The end of a pass as one update of the state (43_frame_scheduler.md R93). -/
theorem finishIfSpent_eq (s : State) :
    finishIfSpent s = { s with frameCount := if s.budget ≤ 0 then s.frameCount + 1 else s.frameCount } := rfl

/-- `image()` as one update of the state (43_frame_scheduler.md R98). -/
theorem performCall_image (s : State) :
    performCall .image s = { s with imageResult := Config.displayImage s.displayOwn } := rfl

theorem hostTurn_cons {c : HostCall} {rest : List HostCall} (h : s.hostCalls = c :: rest) :
    hostTurn s = performCall c { s with hostCalls := rest } := by
  rw [hostTurn, h]
  rfl

theorem hostTurn_nil (h : s.hostCalls = []) : hostTurn s = performCall .frame s := by
  rw [hostTurn, h]
  rfl

/-- No call but `image()` writes what the last one returned. -/
theorem performCall_imageResult {c : HostCall} (hc : c ≠ .image) (s : State) :
    (performCall c s).imageResult = s.imageResult := by
  cases c with
  | frame => rfl
  | frames => rfl
  | image => exact absurd rfl hc
  | keydown key => rw [performCall_keydown]
  | keyup key => rw [performCall_keyup]

end

/-- Settles O49: in a frame a step is a pass, whose outcome is that of its driver step; between frames it is the
host's turn. -/
theorem stepIsAPassOrAHostCall : Obligations.StepIsAPassOrAHostCall := by
  intro s hf
  refine ⟨fun u hframe hu => ?_, fun f hframe hu => ?_, fun c rest hspent hcalls => ?_, fun hspent hcalls => ?_,
    performCall_image s⟩
  · rw [step_inFrame hf hframe, frameIteration_of_next hu, finishIfSpent_eq, displayStep_frameCount,
      timerStep_frameCount, (driverStep_frame hu).frameCount]
  · rw [step_inFrame hf hframe, frameIteration_of_fault hu]
  · rw [step_between hf (Int.not_lt.1 hspent), hostTurn_cons hcalls]
  · rw [step_between hf (Int.not_lt.1 hspent), hostTurn_nil hcalls]

/-- Settles O53: a driver step leaves the display's own state and the image, and of the host calls `image()` alone
writes the latter. -/
theorem imageHandsOutTheBuffer : Obligations.ImageHandsOutTheBuffer :=
  ⟨performCall_image, fun _ _ h => ⟨(driverStep_frame h).displayOwn, (driverStep_frame h).imageResult⟩,
    fun c s => ⟨(performCall_frame c s).displayOwn, fun hc => performCall_imageResult hc s⟩⟩

/-- Settles O57: a step in a frame is a pass, and neither the driver step nor the peripherals write what a host call
does. -/
theorem hostWaitsForTheFrame : Obligations.HostWaitsForTheFrame := by
  intro s t hframe h
  obtain ⟨u, hu, rfl⟩ := frameIteration_next (step_next_inFrame hframe h)
  have k := driverStep_frame hu
  simp [k.hostCalls, k.buttons, k.directions, k.framesResult, k.imageResult]

end Sys2Proof.Machine
end

section
/-! PROOF. The interrupts the timer and the display may raise (43_frame_scheduler.md R95, 60_exceptions.md R100). -/

namespace Sys2Proof.Machine

section

variable {s : State}

/-- Raising a source leaves the IF bits of the others (60_exceptions.md R101). -/
theorem getLsbD_raiseWhen_of_ne (up : Bool) {src : InterruptSource} {i : Nat} (h : i ≠ interruptBit src) :
    (raiseWhen up src s).intFlag.getLsbD i = s.intFlag.getLsbD i := by
  have hone : (1#8 <<< interruptBit src).getLsbD i = false := by
    rcases Nat.lt_or_gt_of_ne h with hlt | hgt
    · simp [hlt]
    · simp [Nat.sub_ne_zero_of_lt hgt]
  cases up with
  | false => rfl
  | true => simp [raiseWhen, setBitAt, hone]

/-- The timer clears no IF bit. -/
theorem getLsbD_timerStep {i : Nat} (h : s.intFlag.getLsbD i = true) : (timerStep s).intFlag.getLsbD i = true :=
  raiseWhen_getLsbD _ _ _ i h

/-- The display clears no IF bit. -/
theorem getLsbD_displayStep {i : Nat} (h : s.intFlag.getLsbD i = true) : (displayStep s).intFlag.getLsbD i = true :=
  raiseWhen_getLsbD _ _ _ i (raiseWhen_getLsbD _ _ _ i h)

/-- The timer owns IF bit 2 alone. -/
theorem getLsbD_timerStep_of_ne {i : Nat} (h : i ≠ 2) : (timerStep s).intFlag.getLsbD i = s.intFlag.getLsbD i :=
  getLsbD_raiseWhen_of_ne _ h

/-- The display owns IF bits 0 and 1 alone. -/
theorem getLsbD_displayStep_of_ne {i : Nat} (h0 : i ≠ 0) (h1 : i ≠ 1) :
    (displayStep s).intFlag.getLsbD i = s.intFlag.getLsbD i :=
  (getLsbD_raiseWhen_of_ne _ h1).trans (getLsbD_raiseWhen_of_ne _ h0)

/-- The timer writes IF and its own state alone. -/
theorem timerStep_eq (s : State) :
    timerStep s = { s with intFlag := (timerStep s).intFlag, timerOwn := (timerStep s).timerOwn } := rfl

/-- The display writes IF and its own state alone. -/
theorem displayStep_eq (s : State) :
    displayStep s = { s with intFlag := (displayStep s).intFlag, displayOwn := (displayStep s).displayOwn } := rfl

end

/-- Settles O54: the two write IF and their own state; each raise sets one bit, of 0 to 2, and clears none. -/
theorem peripheralsOnlyRaise : Obligations.PeripheralsOnlyRaise := by
  intro s
  refine ⟨(displayStep (timerStep s)).intFlag, (timerStep s).timerOwn, (displayStep (timerStep s)).displayOwn, ?_,
    fun i h => getLsbD_displayStep (getLsbD_timerStep h), fun i hi => ?_⟩
  · rw [displayStep_eq (timerStep s), timerStep_eq s]
  · rw [getLsbD_displayStep_of_ne (by omega) (by omega), getLsbD_timerStep_of_ne (by omega)]

end Sys2Proof.Machine
end

section
/-! PROOF. The ticks of the frame loop against its budget, and the end of a frame (43_frame_scheduler.md R94, R96). -/

namespace Sys2Proof.Machine

section

variable {s t : State}

/-! ### The ticks counted -/

/-- Ticks taken from a budget before, and the budget spent after, are the budget spent in all, modulo 2^64. -/
theorem add_ofNat_add_ofInt (c : Count) (k : Nat) (b b' : Int) :
    c + BitVec.ofNat 64 k + BitVec.ofInt 64 (b - k - b') = c + BitVec.ofInt 64 (b - b') := by
  rw [BitVec.add_assoc, ← BitVec.ofInt_natCast, ← BitVec.ofInt_add]
  congr 2
  omega

theorem add_ofInt_sub_self (c : Count) (b : Int) : c + BitVec.ofInt 64 (b - b) = c := by
  rw [Int.sub_self]
  exact BitVec.add_zero c

/-- The loop counts what it takes from the budget, by induction on its passes. -/
theorem frameLoop_totalTicks {n : Nat} (h : frameLoop n s = .next t) :
    t.totalTicks = s.totalTicks + BitVec.ofInt 64 (s.budget - t.budget) := by
  induction n generalizing s with
  | zero =>
    cases h
    exact (add_ofInt_sub_self _ _).symm
  | succ n ih =>
    by_cases hb : 0 < s.budget
    · rw [frameLoop_succ_of_pos n hb] at h
      obtain ⟨u, hu, hrest⟩ := bindNext_eq_next.1 h
      obtain ⟨hticks, hbudget⟩ := frameIteration_ticks hu
      rw [ih hrest, hticks, hbudget, add_ofNat_add_ofInt]
    · rw [frameLoop_of_spent _ (Int.not_lt.1 hb)] at h
      cases h
      exact (add_ofInt_sub_self _ _).symm

/-! ### The end of a frame -/

/-- From a positive budget of at most `2 n`, `n` passes end the frame, since each spends 2 ticks or more. -/
theorem frameLoop_ends_or_faults {n : Nat} (hpos : 0 < s.budget) (hn : s.budget ≤ 2 * n) :
    (∃ t, frameLoop n s = .next t ∧ t.budget ≤ 0 ∧ t.frameCount = s.frameCount + 1) ∨
      ∃ f, frameLoop n s = .fault f := by
  induction n generalizing s with
  | zero => omega
  | succ n ih =>
    rcases driverStep_nextOrFault s with ⟨u, hu⟩ | ⟨f, hu⟩
    · by_cases hleft : 0 < s.budget - u.ticks
      · rw [frameLoop_pass_goes_on n hpos hu hleft]
        have hticks := two_le_driverStep_ticks hu
        have hcount : (displayStep (timerStep u)).frameCount = s.frameCount := by
          rw [displayStep_frameCount, timerStep_frameCount, (driverStep_frame hu).frameCount]
        rw [← hcount]
        exact ih (s := { displayStep (timerStep u) with budget := s.budget - u.ticks }) hleft
          (by push_cast at hn ⊢; omega)
      · rw [frameLoop_pass_ends n hpos hu (Int.not_lt.1 hleft)]
        exact .inl ⟨_, rfl, Int.not_lt.1 hleft, rfl⟩
    · exact .inr ⟨f, frameLoop_pass_faults n hpos hu⟩

end

/-- Settles O50: the loop counts what it takes from the budget, and `frame()` enters it with `FRAME_TICKS` more; one
pass takes its ticks from a budget of 1 or more. -/
theorem ticksRunAreBudgetSpent : Obligations.TicksRunAreBudgetSpent := by
  refine ⟨fun _ _ _ => frameLoop_totalTicks, fun n s t h => ?_, fun s t hframe h => ?_⟩
  · rw [frame] at h
    rw [frameLoop_totalTicks h, beginFrame_eq, finishIfSpent_totalTicks, finishIfSpent_budget, Int.add_comm s.budget]
  · obtain ⟨-, hbudget⟩ := frameIteration_ticks (step_next_inFrame hframe h)
    rw [hbudget]
    omega

/-- Settles O51: a budget that is not positive after the entry ends the frame at once, and any other is at most
`FRAME_TICKS`, which half as many passes spend. -/
theorem frameEndsOrFaults : Obligations.FrameEndsOrFaults := by
  intro n s hspent hn
  obtain ⟨hdone, hloop, -⟩ := frameFollowsItsBudget n s
  by_cases hpos : 0 < s.budget + (s.params.frameTicks : Nat)
  · rw [hloop hpos]
    exact frameLoop_ends_or_faults (s := { s with budget := s.budget + (s.params.frameTicks : Nat) }) hpos
      (by simp only; omega)
  · exact .inl ⟨_, hdone (Int.not_lt.1 hpos), Int.not_lt.1 hpos, rfl⟩

end Sys2Proof.Machine
end
